-- ==== Sys2Proof/Word.lean ====
section
/-! DEFINITION. Word.lean: the word types of the block (00_scope.md R5, R6). All values are unsigned. -/

namespace Sys2Proof

/-- An 8-bit unsigned value, the spec's u8. -/
abbrev Byte := BitVec 8

/-- A 32-bit unsigned value, the spec's u32: a register, a clock value, a bit rate. -/
abbrev Word := BitVec 32

/-- A 6-bit frame identifier (10_state.md R31). -/
abbrev FrameId := BitVec 6

end Sys2Proof
end

