-- ==== Sys2Proof/Syntax.lean ====
section
/-! DEFINITION. Syntax.lean: the instructions of spec/opcode_table.json and the words they are written in.
Two formats stand in the table: CMD (30_encoding.md R96), the word written to the command register, and
BUS (R98), a host bus transaction. -/

namespace Sys2Proof

/-- One constructor per row of the opcode table. A command carries the bits 31:4 of its word, which the
block ignores (R96, R97). A write carries the 32-bit value of the transaction (R98). -/
inductive Instr where
  /-- NOP (R203) -/
  | nop (ign : BitVec 28)
  /-- WRITE_FRAME (R204) -/
  | writeFrame (ign : BitVec 28)
  /-- READ_FRAME (R205) -/
  | readFrame (ign : BitVec 28)
  /-- SEND_BREAK (R206) -/
  | sendBreak (ign : BitVec 28)
  /-- RX_FLUSH (R207) -/
  | rxFlush (ign : BitVec 28)
  | reserved5 (ign : BitVec 28)
  | reserved6 (ign : BitVec 28)
  | reserved7 (ign : BitVec 28)
  | reserved8 (ign : BitVec 28)
  | reserved9 (ign : BitVec 28)
  | reservedA (ign : BitVec 28)
  | reservedB (ign : BitVec 28)
  | reservedC (ign : BitVec 28)
  | reservedD (ign : BitVec 28)
  | reservedE (ign : BitVec 28)
  | reservedF (ign : BitVec 28)
  | rdCtrl
  | rdCmd
  | rdStatus
  | rdFid
  | rdPid
  | rdLen
  | rdCks
  | rdBaud
  | rdData0
  | rdData1
  | rdData2
  | rdData3
  | rdData4
  | rdData5
  | rdData6
  | rdData7
  | wrCtrl (v : Word)
  | wrCmd (v : Word)
  | wrStatus (v : Word)
  | wrFid (v : Word)
  | wrPid (v : Word)
  | wrLen (v : Word)
  | wrCks (v : Word)
  | wrBaud (v : Word)
  | wrData0 (v : Word)
  | wrData1 (v : Word)
  | wrData2 (v : Word)
  | wrData3 (v : Word)
  | wrData4 (v : Word)
  | wrData5 (v : Word)
  | wrData6 (v : Word)
  | wrData7 (v : Word)
deriving DecidableEq, Repr

/-- A line of a host program as a word (R98, R102, R103). `bus` is the 7-bit transaction word with the
32-bit value a write carries (a read leaves it unused). `cmd w` is the line `cmd NAME` of R103 for the
command word `w` of R96: it stands for the transaction `wr CMD, w` (assumption log 2). -/
inductive HostWord where
  | bus (txn : BitVec 7) (value : Word)
  | cmd (word : Word)
deriving DecidableEq, Repr

/-- The width of a host access. The block defines 32-bit accesses only (20_memory.md R62). -/
inductive AccessWidth where
  | w8
  | w16
  | w32
  | w64
deriving DecidableEq, Repr

end Sys2Proof
end

