-- ==== Sys2Proof/WellFormed.lean ====
section
/-! DEFINITION. WellFormed.lean: which host accesses and which instructions are well-formed.
The operands of an instruction are bit vectors of the widths the spec gives, and the spec makes every value
of them legal: bits 31:4 of a command word are ignored, not reserved (30_encoding.md R97), and every register
takes every 32-bit value, ignoring the bits it does not hold (20_memory.md R64). So every term of `Instr` is
well-formed, and what can be ill-formed is the access that carries it. -/

namespace Sys2Proof

/-- Check 1: the access is 32 bits wide (20_memory.md R62). -/
def AccessWidth.wellFormed : AccessWidth → Bool
  | .w32 => true
  | .w8 => false
  | .w16 => false
  | .w64 => false

/-- Check 2: the offset of a transaction is a multiple of 4 (R62). Check 3: a read carries no value, written
as 0 (R98: "A write also carries a 32-bit value"). A command word has no ill-formed value (R97). -/
def HostWord.wellFormed : HostWord → Bool
  | .bus txn value =>
    txn.extractLsb' 0 2 == 0#2 && (txn.getLsbD 6 || value == 0#32)
  | .cmd _ => true

/-- A host access is well-formed when its width and its word are. -/
def accessWellFormed (width : AccessWidth) (word : HostWord) : Bool :=
  width.wellFormed && word.wellFormed

/-- Every instruction is well-formed: see the head of this file. -/
def Instr.wellFormed (_ : Instr) : Bool := true

end Sys2Proof
end

