-- ==== Sys2Proof/Decode.lean ====
section
/-! DEFINITION. Decode.lean: from words to instructions and back (30_encoding.md R96 to R99, R102, R103). -/

namespace Sys2Proof

/-- Why a host word is no transaction of the block. -/
inductive DecodeError where
  /-- Bits 1:0 of the offset are not zero: the fault of R62 (20_memory.md, R98). -/
  | misaligned (off : BitVec 6)
deriving DecidableEq, Repr

/-- Bit 6 of a transaction word is W (R98). -/
def txnWrite (txn : BitVec 7) : Bool := txn.getLsbD 6

/-- Bits 5:0 of a transaction word are the byte offset (R98). -/
def txnOffset (txn : BitVec 7) : BitVec 6 := txn.extractLsb' 0 6

/-- The transaction word of an access to `off` (R98). -/
def mkTxn (write : Bool) (off : BitVec 6) : BitVec 7 := BitVec.ofBool write ++ off

/-- An access is aligned when `off[1:0]` is 0 (R62). -/
def offsetAligned (off : BitVec 6) : Bool := off.extractLsb' 0 2 == 0#2

/-- The opcode field OPC of a command word, bits 3:0 (R96). -/
def cmdOpcode (v : Word) : BitVec 4 := v.extractLsb' 0 4

/-- The ignored field of a command word, bits 31:4 (R96). -/
def cmdIgnored (v : Word) : BitVec 28 := v.extractLsb' 4 28

/-- The command register's decoder: total on every 32-bit word (R96, R97). -/
def decodeCmd (v : Word) : Instr :=
  let ign := cmdIgnored v
  match (cmdOpcode v).toNat with
  | 0x0 => .nop ign
  | 0x1 => .writeFrame ign
  | 0x2 => .readFrame ign
  | 0x3 => .sendBreak ign
  | 0x4 => .rxFlush ign
  | 0x5 => .reserved5 ign
  | 0x6 => .reserved6 ign
  | 0x7 => .reserved7 ign
  | 0x8 => .reserved8 ign
  | 0x9 => .reserved9 ign
  | 0xA => .reservedA ign
  | 0xB => .reservedB ign
  | 0xC => .reservedC ign
  | 0xD => .reservedD ign
  | 0xE => .reservedE ign
  | _ => .reservedF ign

/-- The read of register number `n`, the offset divided by 4 (R98, R99). -/
def decodeRead (n : BitVec 4) : Instr :=
  match n.toNat with
  | 0x0 => .rdCtrl
  | 0x1 => .rdCmd
  | 0x2 => .rdStatus
  | 0x3 => .rdFid
  | 0x4 => .rdPid
  | 0x5 => .rdLen
  | 0x6 => .rdCks
  | 0x7 => .rdBaud
  | 0x8 => .rdData0
  | 0x9 => .rdData1
  | 0xA => .rdData2
  | 0xB => .rdData3
  | 0xC => .rdData4
  | 0xD => .rdData5
  | 0xE => .rdData6
  | _ => .rdData7

/-- The write of `v` to register number `n` (R98, R99). -/
def decodeWrite (n : BitVec 4) (v : Word) : Instr :=
  match n.toNat with
  | 0x0 => .wrCtrl v
  | 0x1 => .wrCmd v
  | 0x2 => .wrStatus v
  | 0x3 => .wrFid v
  | 0x4 => .wrPid v
  | 0x5 => .wrLen v
  | 0x6 => .wrCks v
  | 0x7 => .wrBaud v
  | 0x8 => .wrData0 v
  | 0x9 => .wrData1 v
  | 0xA => .wrData2 v
  | 0xB => .wrData3 v
  | 0xC => .wrData4 v
  | 0xD => .wrData5 v
  | 0xE => .wrData6 v
  | _ => .wrData7 v

/-- The decoder of a host line, total on every word: bit 6 tells the kind, bits 5:2 the register (R99);
a misaligned offset is rejected by name. -/
def decode : HostWord → Except DecodeError Instr
  | .bus txn value =>
    let off := txnOffset txn
    if offsetAligned off then
      let n := off.extractLsb' 2 4
      .ok (if txnWrite txn then decodeWrite n value else decodeRead n)
    else .error (.misaligned off)
  | .cmd word => .ok (decodeCmd word)

/-- The command word with opcode `opc` and ignored bits `ign` (R96). -/
def mkCmd (opc : BitVec 4) (ign : BitVec 28) : Word := ign ++ opc

/-- The encoder, from the tables of R96 and R98. A read carries the value 0. -/
def encode : Instr → HostWord
  | .nop ign => .cmd (mkCmd 0x0 ign)
  | .writeFrame ign => .cmd (mkCmd 0x1 ign)
  | .readFrame ign => .cmd (mkCmd 0x2 ign)
  | .sendBreak ign => .cmd (mkCmd 0x3 ign)
  | .rxFlush ign => .cmd (mkCmd 0x4 ign)
  | .reserved5 ign => .cmd (mkCmd 0x5 ign)
  | .reserved6 ign => .cmd (mkCmd 0x6 ign)
  | .reserved7 ign => .cmd (mkCmd 0x7 ign)
  | .reserved8 ign => .cmd (mkCmd 0x8 ign)
  | .reserved9 ign => .cmd (mkCmd 0x9 ign)
  | .reservedA ign => .cmd (mkCmd 0xA ign)
  | .reservedB ign => .cmd (mkCmd 0xB ign)
  | .reservedC ign => .cmd (mkCmd 0xC ign)
  | .reservedD ign => .cmd (mkCmd 0xD ign)
  | .reservedE ign => .cmd (mkCmd 0xE ign)
  | .reservedF ign => .cmd (mkCmd 0xF ign)
  | .rdCtrl => .bus 0x00 0
  | .rdCmd => .bus 0x04 0
  | .rdStatus => .bus 0x08 0
  | .rdFid => .bus 0x0C 0
  | .rdPid => .bus 0x10 0
  | .rdLen => .bus 0x14 0
  | .rdCks => .bus 0x18 0
  | .rdBaud => .bus 0x1C 0
  | .rdData0 => .bus 0x20 0
  | .rdData1 => .bus 0x24 0
  | .rdData2 => .bus 0x28 0
  | .rdData3 => .bus 0x2C 0
  | .rdData4 => .bus 0x30 0
  | .rdData5 => .bus 0x34 0
  | .rdData6 => .bus 0x38 0
  | .rdData7 => .bus 0x3C 0
  | .wrCtrl v => .bus 0x40 v
  | .wrCmd v => .bus 0x44 v
  | .wrStatus v => .bus 0x48 v
  | .wrFid v => .bus 0x4C v
  | .wrPid v => .bus 0x50 v
  | .wrLen v => .bus 0x54 v
  | .wrCks v => .bus 0x58 v
  | .wrBaud v => .bus 0x5C v
  | .wrData0 v => .bus 0x60 v
  | .wrData1 v => .bus 0x64 v
  | .wrData2 v => .bus 0x68 v
  | .wrData3 v => .bus 0x6C v
  | .wrData4 v => .bus 0x70 v
  | .wrData5 v => .bus 0x74 v
  | .wrData6 v => .bus 0x78 v
  | .wrData7 v => .bus 0x7C v

/-- The host line a word of the opcode table stands for. The table holds two formats over one numbering.
A word whose low byte is one of the 32 transaction words of R98 is that transaction, with the bits above
the low byte as its value; any other word is a command word (R96). So where a word matches rows of both
formats, the row with the longer mask wins (assumption log 1). A row of at most 4 bits, or of 32 bits, is
of the CMD format whatever its word. -/
def tableHostWord (nbits w : Nat) : HostWord :=
  let low := w % 256
  if nbits ≤ 4 ∨ nbits = 32 then .cmd (BitVec.ofNat 32 w)
  else if low < 128 ∧ low % 4 = 0 then .bus (BitVec.ofNat 7 low) (BitVec.ofNat 32 (w / 256))
  else .cmd (BitVec.ofNat 32 w)

/-- What the decoder reads from a word numbered as the opcode table numbers it. -/
def decodeTableWord (nbits w : Nat) : Option Instr :=
  match decode (tableHostWord nbits w) with
  | .ok i => some i
  | .error _ => none

/-- The pseudo-instruction `clr MASK` (R103): a W1C write of STATUS. -/
def clrLine (mask : Word) : List Instr := [.wrStatus mask]

/-- The pseudo-instruction `cmd NAME` (R103), with the opcode of NAME. -/
def cmdLine (opc : BitVec 4) : List Instr := [.wrCmd (opc.setWidth 32)]

/-- The write of data register `k` in the pseudo-instruction `frame`; a frame has at most 8 data bytes,
and there is no register beyond DATA7. -/
def wrDataLine (k : Nat) (v : Word) : List Instr :=
  if k < 8 then [decodeWrite (BitVec.ofNat 4 (8 + k)) v] else []

/-- The writes of DATA`k`, DATA`k+1`, … for the data bytes `ds`. -/
def wrDataLines : Nat → List Word → List Instr
  | _, [] => []
  | k, d :: ds => wrDataLine k d ++ wrDataLines (k + 1) ds

/-- The pseudo-instruction `frame FID, n, d0, …` (R103). -/
def frameLines (fid n : Word) (ds : List Word) : List Instr :=
  [.wrFid fid, .wrLen n] ++ wrDataLines 0 ds

/-- The condition that ends the loop `wait_done` (R103): bit 1 of the STATUS word read is 1. -/
def waitDoneEnds (status : Word) : Bool := status.getLsbD 1

/-- The condition that ends the loop `wait_idle` (R103): bit 0 of the STATUS word read is 0. -/
def waitIdleEnds (status : Word) : Bool := !status.getLsbD 0

end Sys2Proof
end

