-- ==== Sys2Proof/Config.lean ====
section
/-! DEFINITION. Config.lean: the implementation parameters of 00_scope.md R4.
The values the source or the spec fixes are definitions. The OPEN ones are constants without a body:
no proof can learn their value. State carries the parameters, so every statement about every state
holds for every value of them (assumption log 7). -/

namespace Sys2Proof

/-- `T_FRAME_MS` (R4, R212): the source's 50 ms per frame. -/
def Config.tFrameMs : Word := 50

/-- `T_WAKE_MS` (R4, R147): 100 is the value of this block. -/
def Config.tWakeMs : Word := 100

/-- The least and the greatest value a model may set `T_WAKE_MS` to (R4, 90_conflicts.md C2). -/
def Config.tWakeMin : Word := 100
/-- See `Config.tWakeMin`. -/
def Config.tWakeMax : Word := 150

/-- `BAUD_RESET` (R4, R35): 19200 bit/s. -/
def Config.baudReset : Word := 19200

/-- `VERIFY_RESET` (R4, R27): verify is on by default. -/
def Config.verifyReset : Bool := true

/-- `DRAIN_RESET` (R4, R27): drain is off by default. -/
def Config.drainReset : Bool := false

/-- `LEN_RESET` (R4, R33). -/
def Config.lenReset : BitVec 4 := 8

/-- `MAX_DATA` (R4): the data bytes of a frame. -/
def Config.maxData : BitVec 4 := 8

/-- `T_FAIL_DELAY_MS` (R4, R217): OPEN. -/
opaque Config.tFailDelayMs : Word

/-- `ECHO` (R4, R72): OPEN, whether the bus echoes every transmitted byte. -/
opaque Config.echo : Bool

/-- `RX_DEPTH` (R4, R40): OPEN, the capacity of the UART's receive FIFO. -/
opaque Config.rxDepth : Nat

/-- `LIN_BASE` (R4, R60): OPEN, the platform address of register offset 0. -/
opaque Config.linBase : Word

end Sys2Proof
end

