-- ==== Sys2Proof/Machine/State.lean ====
section
/-! DEFINITION. State.lean: the state of the block, of its environment agents, and the state after reset.
10_state.md gives the block (R20 to R41); the environment is what R40 leaves to a model. -/

namespace Sys2Proof.Machine

/-- The sequencer's states, in the order of their codes (10_state.md R37, 30_encoding.md R101). -/
inductive FState where
  | idle
  | brkFlush1
  | brkSend
  | brkFlush2
  | txSync
  | txPid
  | txData
  | txCks
  | txFlush
  | rxPoll
  | drain
  | wakeDelay
  | failDelay
  | rxFlushing
deriving DecidableEq, Repr

/-- Which command is in flight, `f.op` (R37). -/
inductive Op where
  | write
  | read
  | brk
  | flush
deriving DecidableEq, Repr

/-- The reader's states, in the order of their codes (R39, R100). -/
inductive RState where
  | waitForBreak
  | waitForSync
  | waitForPid
  | waitForData
  | waitForChecksum
  | frameComplete
deriving DecidableEq, Repr

/-- Eight bytes under an index 0..7: DATA0..DATA7 (R36), and the reader's buffer (R39). -/
structure Bytes8 where
  b0 : Byte
  b1 : Byte
  b2 : Byte
  b3 : Byte
  b4 : Byte
  b5 : Byte
  b6 : Byte
  b7 : Byte
deriving DecidableEq, Repr

/-- CTRL (R27). -/
structure Ctrl where
  verify : Bool
  drain : Bool
  irqEn : Bool
deriving DecidableEq, Repr

/-- The stored bits of STATUS: the event flags (R30) and SUCCESS (R29). BUSY, RSTATE, RCOUNT and FSTATE are
computed from the state (R29). -/
structure Status where
  done : Bool
  success : Bool
  timeout : Bool
  cksErr : Bool
  rbErr : Bool
  lenErr : Bool
  cmdErr : Bool
  cfgErr : Bool
deriving DecidableEq, Repr

/-- The sequencer's fields (R37). -/
structure Seq where
  state : FState
  op : Op
  idx : BitVec 4
  k : BitVec 4
  t0 : Word
deriving DecidableEq, Repr

/-- The reader's fields (R39). -/
structure Reader where
  state : RState
  count : BitVec 4
  buf : Bytes8
  fid : FrameId
  pid : Byte
  len : BitVec 4
deriving DecidableEq, Repr

/-- The block: its registers (R27 to R36), `baud_out` (R38), the sequencer and the reader. -/
structure Block where
  ctrl : Ctrl
  status : Status
  fid : FrameId
  len : BitVec 4
  baud : Word
  data : Bytes8
  baudOut : Word
  f : Seq
  r : Reader
deriving DecidableEq, Repr

/-- A character pushed to the UART: its byte, the bit rate current at the push (R73), and whether a reset
changed the rate before it had left the transmitter, in which case the wire bits are the environment's draw
(R291). -/
structure TxChar where
  byte : Byte
  baud : Word
  disturbed : Bool
deriving DecidableEq, Repr

/-- The UART collaborator and the bus it listens to (R22, R40): the level of `tx_ready`; the pushed characters that
have not started on the bus, oldest first; the pushed character that is going out; the bytes that have started on
the bus and not yet reached the receiver, in the order in which they started (R72, assumption log 12); the receive
FIFO, oldest byte first (R71). `line` is the model's own record of the characters that have left the transmitter,
oldest first (assumption log 10). -/
structure Uart where
  txReady : Bool
  txQueue : List TxChar
  txActive : Option TxChar
  onBus : List Byte
  rxFifo : List Byte
  line : List TxChar
deriving DecidableEq, Repr

/-- The parameters the model takes as arguments (00_scope.md R4). No step changes them. -/
structure Params where
  tFailDelayMs : Word
  tWakeMs : Word
  echo : Bool
  rxDepth : Nat
  linBase : Word
deriving DecidableEq, Repr

/-- What the receiver makes of a character on the bus: the byte itself, another byte (a damaged character), or
nothing (93_implementation_defined.md section 2). -/
inductive ArrivalDraw where
  | intact
  | damaged (b : Byte)
  | lost
deriving DecidableEq, Repr

/-- Which bytes are lost when one arrives at a full FIFO: the marks of the held bytes, oldest first, and then of
the arriving one (R40, 93_implementation_defined.md section 2, assumption log 13). A position without a mark is
kept, as far as it fits. -/
structure OverflowDraw where
  lost : List Bool
deriving DecidableEq, Repr

/-- A move of one agent (R20). Which agent moves next is the environment's choice, written down as data
(assumption log 4). -/
inductive Event where
  /-- The host makes one register access. -/
  | host (width : AccessWidth) (word : HostWord)
  /-- The host makes one access at a platform address (R60, assumption log 21). -/
  | hostAt (width : AccessWidth) (write : Bool) (addr : Word) (value : Word)
  /-- The sequencer takes one step, or holds. -/
  | sequencer
  /-- The input `rst` takes a level. -/
  | rst (level : Bool)
  /-- `now_ms` moves forward by `ms` mod 2^32 (R23). -/
  | clock (ms : Word)
  /-- The UART drives `tx_ready` to a level. -/
  | txReady (level : Bool)
  /-- The oldest pushed character starts on the bus (R72). -/
  | txStart
  /-- The character going out, stop bit included, leaves the transmitter. -/
  | txDone
  /-- A byte of another node, or of noise, starts on the bus. -/
  | busStart (b : Byte)
  /-- The byte that started on the bus first of those not yet received reaches the receiver. -/
  | rxArrive (draw : ArrivalDraw) (overflow : OverflowDraw)
deriving DecidableEq, Repr

/-- The whole machine: the block, its environment, and the moves still to be made. -/
structure State where
  block : Block
  uart : Uart
  /-- The input `now_ms` (R23). -/
  nowMs : Word
  /-- The input `rst` (R21). -/
  rst : Bool
  /-- What the register access port last returned for a RegRead (the model's own, assumption log 10). -/
  rdata : Option Word
  params : Params
  /-- The moves still to be made, next one first (the model's own, assumption log 3). -/
  script : List Event
  /-- The moves made over and over once `script` is done; when there are none, the block alone moves (the model's
  own, assumption log 26). -/
  forever : List Event
deriving DecidableEq, Repr

/-- Why the machine stops with a fault. -/
inductive Fault where
  /-- A host access that is misaligned or not 32 bits wide (20_memory.md R62, 60_exceptions.md R263). Raised by
  the register access port, never by an instruction that decodes. The spec's own fault: safe. -/
  | busError (off : BitVec 6)
  /-- The sequencer's fields meet no step rule of 43_framer_commands.md (TX_DATA with no byte to send).
  Raised by the sequencer's step; no state reachable from reset raises it. Safe: the machine stops. -/
  | noStepRule (st : FState)
deriving DecidableEq, Repr

/-- Why the model refuses to go on. -/
inductive Refusal where
  /-- An instruction without a meaning. Raised by a refused arm of `exec` only. Safe. -/
  | notModelled (mnemonic : String)
  /-- A byte given to a reader that has no transition for it (42_frame_reader.md R167, R174: "a model of the
  reader alone must refuse `process_byte` in a complete state"). Raised by RX_POLL; no state reachable from
  reset raises it. Safe. -/
  | readerNoTransition (st : RState)
  /-- An access at a platform address outside the block's window (R61): not the block's. Raised by the platform
  address move. Safe. -/
  | outsideWindow (addr : Word)
deriving DecidableEq, Repr

/-- Eight zero bytes. -/
def Bytes8.zero : Bytes8 := ⟨0, 0, 0, 0, 0, 0, 0, 0⟩

/-- STATUS with every stored bit 0. -/
def Status.zero : Status := ⟨false, false, false, false, false, false, false, false⟩

/-- The block's registers at the reset values of R27 to R38 around given `f` and `r`. -/
def Block.resetWith (f : Seq) (r : Reader) : Block where
  ctrl := ⟨Config.verifyReset, Config.drainReset, false⟩
  status := Status.zero
  fid := 0
  len := Config.lenReset
  baud := Config.baudReset
  data := Bytes8.zero
  baudOut := Config.baudReset
  f := f
  r := r

/-- The block right after power-on reset. The fields for which R37 and R39 give no reset value are
`f.op`, `f.idx`, `f.k`, `f.t0`, `r.buf`, `r.fid`, `r.pid` and `r.len`; their values here are the model's
(DESIGN CHOICE, assumption log 5). -/
def Block.initial : Block :=
  Block.resetWith
    { state := .idle, op := .write, idx := 0, k := 0, t0 := 0 }
    { state := .waitForBreak, count := 0, buf := Bytes8.zero, fid := 0, pid := 0x80, len := 0 }

/-- The UART before anything is sent or received (DESIGN CHOICE, assumption log 9). -/
def Uart.initial : Uart where
  txReady := true
  txQueue := []
  txActive := none
  onBus := []
  rxFifo := []
  line := []

/-- The parameters: `T_WAKE_MS` is 100 (R4, assumption log 8), the others are OPEN (assumption log 7). -/
def Params.configured : Params where
  tFailDelayMs := Config.tFailDelayMs
  tWakeMs := Config.tWakeMs
  echo := Config.echo
  rxDepth := Config.rxDepth
  linBase := Config.linBase

/-- The machine right after reset (70_reset_and_hazards.md R290 to R293), `rst` back at 0, with no move to
make: a program is loaded from outside as the moves of `script` (assumption log 3). -/
def State.reset : State where
  block := Block.initial
  uart := Uart.initial
  nowMs := 0
  rst := false
  rdata := none
  params := Params.configured
  script := []
  forever := []

end Sys2Proof.Machine
end

