-- ==== Sys2Proof/Machine/Operands.lean ====
section
/-! DEFINITION. Operands.lean: what commands and registers are computed from. The checksum and PID-parity
engine (40_checksum_pid.md R120 to R126), eight bytes under an index, and the fields of a written value. -/

namespace Sys2Proof.Machine

/-! ### Eight bytes under an index (10_state.md R36, R39) -/

/-- The bytes in index order. -/
def Bytes8.toList (x : Bytes8) : List Byte := [x.b0, x.b1, x.b2, x.b3, x.b4, x.b5, x.b6, x.b7]

/-- `X[0..m-1]` (00_scope.md R7). -/
def Bytes8.first (x : Bytes8) (m : Nat) : List Byte := x.toList.take m

/-- The byte at index `i`; there is none beyond index 7. -/
def Bytes8.get? (x : Bytes8) (i : Nat) : Option Byte := x.toList[i]?

/-- `X[i] <- b`; there is no byte beyond index 7. -/
def Bytes8.set? (x : Bytes8) (i : Nat) (b : Byte) : Option Bytes8 :=
  match i with
  | 0 => some { x with b0 := b }
  | 1 => some { x with b1 := b }
  | 2 => some { x with b2 := b }
  | 3 => some { x with b3 := b }
  | 4 => some { x with b4 := b }
  | 5 => some { x with b5 := b }
  | 6 => some { x with b6 := b }
  | 7 => some { x with b7 := b }
  | _ => none

/-- `for i in 0 .. m-1: DST[i] <- SRC[i]`. -/
def Bytes8.copyFirst (m : Nat) (src dst : Bytes8) : Bytes8 where
  b0 := if 0 < m then src.b0 else dst.b0
  b1 := if 1 < m then src.b1 else dst.b1
  b2 := if 2 < m then src.b2 else dst.b2
  b3 := if 3 < m then src.b3 else dst.b3
  b4 := if 4 < m then src.b4 else dst.b4
  b5 := if 5 < m then src.b5 else dst.b5
  b6 := if 6 < m then src.b6 else dst.b6
  b7 := if 7 < m then src.b7 else dst.b7

/-! ### The engine (40_checksum_pid.md) -/

/-- `g = f & 0x3F` (R120, R124): only the low 6 bits of an identifier are used. -/
def maskFid {w : Nat} (f : BitVec w) : FrameId := f.setWidth 6

/-- The parity bit P0 of R92 (30_encoding.md). -/
def parity0 (g : FrameId) : Bool :=
  (g.getLsbD 0 ^^ g.getLsbD 1) ^^ (g.getLsbD 2 ^^ g.getLsbD 4)

/-- The parity bit P1 of R92. -/
def parity1 (g : FrameId) : Bool :=
  !((g.getLsbD 1 ^^ g.getLsbD 3) ^^ (g.getLsbD 4 ^^ g.getLsbD 5))

/-- `pid(f)`, the protected identifier (R92, R120). -/
def pid {w : Nat} (f : BitVec w) : Byte :=
  let g := maskFid f
  (BitVec.ofBool (parity1 g) ++ BitVec.ofBool (parity0 g)) ++ g

/-- The 16-bit sum of R121: the seed and the data, mod 2^16. -/
def cksSum (seed : Byte) (d : List Byte) : BitVec 16 :=
  d.foldl (fun sum b => sum + b.setWidth 16) (seed.setWidth 16)

/-- The first fold of R121. -/
def cksFold1 (sum : BitVec 16) : BitVec 16 := (sum &&& 0x00FF) + (sum >>> 8)

/-- The second fold of R121. -/
def cksFold2 (sum : BitVec 16) : BitVec 16 := sum + (sum >>> 8)

/-- `cks(seed, D)`, the LIN checksum (R121). -/
def cks (seed : Byte) (d : List Byte) : Byte :=
  (~~~ (cksFold2 (cksFold1 (cksSum seed d)))).setWidth 8

/-- The classic checksum (R122). -/
def classicCks (d : List Byte) : Byte := cks 0 d

/-- The enhanced checksum (R123). -/
def enhancedCks {w : Nat} (fid : BitVec w) (d : List Byte) : Byte := cks (pid fid) d

/-- `frame_cks(fid, D)`: classic from 0x3C on, enhanced below (R124). -/
def frameCks {w : Nat} (fid : BitVec w) (d : List Byte) : Byte :=
  let g := maskFid fid
  if 0x3C#6 ≤ g then classicCks d else enhancedCks g d

/-! ### Fields of a written value, and operands of a command (20_memory.md R64, 30_encoding.md R95) -/

/-- Bits 5:0, for FID (R31). -/
def fidField (v : Word) : FrameId := v.setWidth 6

/-- Bits 3:0, for LEN (R33). -/
def lenField (v : Word) : BitVec 4 := v.setWidth 4

/-- Bits 7:0, for DATA (R36). -/
def dataField (v : Word) : Byte := v.setWidth 8

/-- The data bytes a WRITE_FRAME sends, `DATA[0..LEN-1]` (R213, R214). -/
def Block.frameData (b : Block) : List Byte := b.data.first b.len.toNat

/-- The PID byte of the frame (R95, R209). -/
def Block.framePid (b : Block) : Byte := pid b.fid

/-- The checksum byte of the frame (R95, R214). -/
def Block.frameChecksum (b : Block) : Byte := frameCks b.fid b.frameData

/-- The half rate of the break, `BAUD >> 1` (41_break_generator.md R140). -/
def Block.halfBaud (b : Block) : Word := b.baud >>> 1

/-- The number of echo bytes of the frame: 3 for a header alone, else LEN + 4 (43_framer_commands.md R215). -/
def Block.echoCount (b : Block) : BitVec 4 := if b.len = 0 then 3 else b.len + 4

/-- `elapsed(t0) = (Now - t0) mod 2^32` (00_scope.md R7). -/
def elapsed (now t0 : Word) : Word := now - t0

end Sys2Proof.Machine
end

