-- ==== Sys2Proof/Machine/Flags.lean ====
section
/-! DEFINITION. Flags.lean: STATUS and `irq`, and every register as the host reads it
(10_state.md R27 to R36, 30_encoding.md R100, R101, 60_exceptions.md R261, R262). -/

namespace Sys2Proof.Machine

/-- The code of a reader state in STATUS.RSTATE (R100). -/
def RState.code : RState → BitVec 3
  | .waitForBreak => 0
  | .waitForSync => 1
  | .waitForPid => 2
  | .waitForData => 3
  | .waitForChecksum => 4
  | .frameComplete => 5

/-- The code of a sequencer state in STATUS.FSTATE (R101). -/
def FState.code : FState → BitVec 4
  | .idle => 0
  | .brkFlush1 => 1
  | .brkSend => 2
  | .brkFlush2 => 3
  | .txSync => 4
  | .txPid => 5
  | .txData => 6
  | .txCks => 7
  | .txFlush => 8
  | .rxPoll => 9
  | .drain => 10
  | .wakeDelay => 11
  | .failDelay => 12
  | .rxFlushing => 13

/-- STATUS.BUSY: `f.state ≠ IDLE` (R29). -/
def Block.busy (b : Block) : Bool := b.f.state != .idle

/-- The output `irq` is DONE and IRQ_EN (R262). -/
def Block.irq (b : Block) : Bool := b.status.done && b.ctrl.irqEn

/-- One bit of a register word. -/
def bit1 (x : Bool) : BitVec 1 := BitVec.ofBool x

/-- STATUS as the host reads it, bit 31 first (R29, R30). -/
def Block.statusWord (b : Block) : Word :=
  0#12 ++ b.f.state.code ++ b.r.count ++ bit1 b.status.cfgErr ++ b.r.state.code
    ++ bit1 b.status.cmdErr ++ bit1 b.status.lenErr ++ bit1 b.status.rbErr ++ bit1 b.status.cksErr
    ++ bit1 b.status.timeout ++ bit1 b.status.success ++ bit1 b.status.done ++ bit1 b.busy

/-- CTRL as the host reads it (R27). -/
def Block.ctrlWord (b : Block) : Word :=
  0#29 ++ bit1 b.ctrl.irqEn ++ bit1 b.ctrl.drain ++ bit1 b.ctrl.verify

/-- CMD reads 0 (R28). -/
def Block.cmdWord (_ : Block) : Word := 0

/-- FID as the host reads it (R31). -/
def Block.fidWord (b : Block) : Word := b.fid.setWidth 32

/-- PID reads `pid(FID)` (R32). -/
def Block.pidWord (b : Block) : Word := (pid b.fid).setWidth 32

/-- LEN as the host reads it (R33). -/
def Block.lenWord (b : Block) : Word := b.len.setWidth 32

/-- CKS reads `frame_cks(FID, DATA[0..m-1])` with `m = min(LEN, 8)` (R34). -/
def Block.cksWord (b : Block) : Word :=
  (frameCks b.fid (b.data.first (min b.len.toNat 8))).setWidth 32

/-- BAUD as the host reads it (R35). -/
def Block.baudWord (b : Block) : Word := b.baud

/-- A data register as the host reads it (R36). -/
def dataWord (x : Byte) : Word := x.setWidth 32

/-- A write of 1 to an event flag clears it, a write of 0 leaves it (R30). -/
def w1c (v : Word) (bit : Nat) (flag : Bool) : Bool := flag && !v.getLsbD bit

/-- The write of `v` to STATUS: every W1C flag whose bit in `v` is 1 is cleared, nothing else changes
(R30, 20_memory.md R65). -/
def Status.clearFlags (st : Status) (v : Word) : Status where
  done := w1c v 1 st.done
  success := st.success
  timeout := w1c v 3 st.timeout
  cksErr := w1c v 4 st.cksErr
  rbErr := w1c v 5 st.rbErr
  lenErr := w1c v 6 st.lenErr
  cmdErr := w1c v 7 st.cmdErr
  cfgErr := w1c v 11 st.cfgErr

/-- The flags at acceptance of a command: all cleared but CMD_ERR (43_framer_commands.md R201). -/
def Status.accepted (st : Status) : Status where
  done := false
  success := false
  timeout := false
  cksErr := false
  rbErr := false
  lenErr := false
  cmdErr := st.cmdErr
  cfgErr := false

end Sys2Proof.Machine
end

