-- ==== Sys2Proof/Machine/Reader.lean ====
section
/-! DEFINITION. Reader.lean: the frame reader (42_frame_reader.md). -/

namespace Sys2Proof.Machine

/-- `reader_start(fid, len)` (R160). -/
def Reader.start {w : Nat} (fid : BitVec w) (len : BitVec 4) (r : Reader) : Reader :=
  { r with
    state := .waitForBreak
    count := 0
    fid := maskFid fid
    pid := Machine.pid (maskFid fid)
    len := len }

/-- The reset of the reader in the sense of the source's table (R172). -/
def Reader.toBreak (r : Reader) : Reader := { r with state := .waitForBreak, count := 0 }

/-- `complete(r)` (R173). -/
def Reader.complete (r : Reader) : Bool :=
  r.state == .frameComplete || (r.len == 0 && r.state == .waitForData)

/-- The checksum the reader expects, `frame_cks(r.fid, r.buf[0..r.len-1])` (R169). -/
def Reader.expectedCks (r : Reader) : Byte := frameCks r.fid (r.buf.first r.len.toNat)

/-- The append of R167, with the move to WaitForChecksum of R168. -/
def Reader.append (r : Reader) (b : Byte) : Option Reader :=
  if r.count < r.len then
    match r.buf.set? r.count.toNat b with
    | some buf =>
      some { r with
        buf := buf
        count := r.count + 1
        state := if r.count + 1 = r.len then .waitForChecksum else .waitForData }
    | none => none
  else none

/-- What `process_byte` does: the reader after the byte, and whether the byte was a checksum mismatch, which
sets CKS_ERR (R171). -/
structure ReaderStep where
  reader : Reader
  mismatch : Bool
deriving DecidableEq, Repr

/-- `process_byte(b)` (R161 to R172). None where the table has no transition: a complete reader is refused a
byte (R174), and so is WaitForData with no room left (R167). -/
def Reader.processByte (r : Reader) (b : Byte) : Option ReaderStep :=
  if r.complete then none else
  match r.state with
  | .waitForBreak =>
    some ⟨if b = 0x00 then { r with state := .waitForSync } else r, false⟩
  | .waitForSync =>
    some ⟨if b = 0x55 then { r with state := .waitForPid } else r.toBreak, false⟩
  | .waitForPid =>
    some ⟨if b = r.pid then { r with state := .waitForData } else r.toBreak, false⟩
  | .waitForData =>
    match r.append b with
    | some r' => some ⟨r', false⟩
    | none => none
  | .waitForChecksum =>
    if b = r.expectedCks then some ⟨{ r with state := .frameComplete }, false⟩
    else some ⟨r.toBreak, true⟩
  | .frameComplete => none

/-- A run of bytes through the reader alone. None when a byte is refused. The flag says whether any byte was a
checksum mismatch. -/
def Reader.feed (r : Reader) : List Byte → Option ReaderStep
  | [] => some ⟨r, false⟩
  | b :: bs =>
    match r.processByte b with
    | none => none
    | some st =>
      match st.reader.feed bs with
      | none => none
      | some rest => some ⟨rest.reader, st.mismatch || rest.mismatch⟩

end Sys2Proof.Machine
end

