-- ==== Sys2Proof/Machine/Ops.lean ====
section
/-! DEFINITION. Ops.lean: the named operations every meaning and every sequencer step is made of: the register
writes (20_memory.md R64 to R66), the end of a transaction and its acknowledgement, which are the block's
exception entry and return (60_exceptions.md R267, R268), command acceptance (43_framer_commands.md R200, R201),
reset (70_reset_and_hazards.md R290, R291), and the ports to the UART (10_state.md R22). -/

namespace Sys2Proof.Machine

/-! ### The state around the block -/

/-- A change of the block alone. -/
def State.mapBlock (g : Block → Block) (s : State) : State := { s with block := g s.block }

/-- `RegRead` returns `v` on the register access port (R63). -/
def State.returnRead (v : Word) (s : State) : State := { s with rdata := some v }

/-- The input `tx_empty`: every pushed character has left the transmitter (R73, assumption log 11). -/
def State.txEmpty (s : State) : Bool := s.uart.txQueue.isEmpty && s.uart.txActive.isNone

/-- The input `rx_count` (R22). -/
def State.rxCount (s : State) : Nat := s.uart.rxFifo.length

/-! ### The end of a transaction, and its acknowledgement -/

/-- `finish(ok)` (R202, R267): the one way a transaction reports its outcome. -/
def Block.finish (ok : Bool) (b : Block) : Block :=
  { b with
    status := { b.status with success := ok, done := true }
    f := { b.f with state := .idle } }

/-- The host's acknowledgement (R268, R65): the write of `v` to STATUS. -/
def Block.acknowledge (v : Word) (b : Block) : Block :=
  { b with status := b.status.clearFlags v }

/-! ### Commands -/

/-- A refused command sets CMD_ERR and changes nothing else (R200). -/
def Block.refuse (b : Block) : Block := { b with status := { b.status with cmdErr := true } }

/-- Whether the operation carries a length to check (R201). -/
def Op.checksLen : Op → Bool
  | .write => true
  | .read => true
  | .brk => false
  | .flush => false

/-- Whether the operation sends a break, and so needs a bit rate of at least 2 (R201). -/
def Op.checksBaud : Op → Bool
  | .write => true
  | .read => true
  | .brk => true
  | .flush => false

/-- `bad_len` of R201. -/
def Block.badLen (op : Op) (b : Block) : Bool := op.checksLen && decide (Config.maxData < b.len)

/-- `bad_baud` of R201. -/
def Block.badBaud (op : Op) (b : Block) : Bool := op.checksBaud && decide (b.baud < 2)

/-- The first state of an accepted command (R201). -/
def Op.firstState : Op → FState
  | .write => .brkFlush1
  | .read => .brkFlush1
  | .brk => .brkFlush1
  | .flush => .rxFlushing

/-- `accept(opc)` (R201). -/
def Block.accept (op : Op) (b : Block) : Block :=
  let checked : Block :=
    { b with
      status := { b.status.accepted with lenErr := b.badLen op, cfgErr := b.badBaud op }
      f := { b.f with op := op } }
  if b.badLen op || b.badBaud op then checked.finish false
  else { checked with f := { checked.f with state := op.firstState } }

/-- A command other than NOP with an unreserved opcode: refused while BUSY, else accepted (R200). -/
def Block.command (op : Op) (b : Block) : Block := if b.busy then b.refuse else b.accept op

/-! ### Register writes (R64, R66) -/

/-- A write to a field that is frozen while BUSY (R66). -/
def Block.whenIdle (b : Block) (b' : Block) : Block := if b.busy then b else b'

/-- The write of CTRL: VERIFY and DRAIN are frozen while BUSY, IRQ_EN never (R27, R66). -/
def Block.writeCtrl (v : Word) (b : Block) : Block :=
  { b with
    ctrl :=
      { verify := if b.busy then b.ctrl.verify else v.getLsbD 0
        drain := if b.busy then b.ctrl.drain else v.getLsbD 1
        irqEn := v.getLsbD 2 } }

/-- The write of FID (R31). -/
def Block.writeFid (v : Word) (b : Block) : Block := b.whenIdle { b with fid := fidField v }

/-- The write of LEN (R33). -/
def Block.writeLen (v : Word) (b : Block) : Block := b.whenIdle { b with len := lenField v }

/-- The write of BAUD, which also drives `baud_out` (R35, R38). -/
def Block.writeBaud (v : Word) (b : Block) : Block := b.whenIdle { b with baud := v, baudOut := v }

/-- The write of the data registers: `g` replaces the one written (R36). -/
def Block.writeData (g : Bytes8 → Bytes8) (b : Block) : Block := b.whenIdle { b with data := g b.data }

/-! ### Reset (R290, R291) -/

/-- The block after a reset step: every field with a reset value takes it. `f.op`, `f.idx`, `f.k`, `f.t0`,
`r.buf`, `r.fid`, `r.pid` and `r.len` have none, and stay as they stand (DESIGN CHOICE, assumption log 6). -/
def Block.reset (b : Block) : Block :=
  Block.resetWith
    { b.f with state := .idle }
    { b.r with state := .waitForBreak, count := 0 }

/-- A character that was in the transmitter when a reset changed the rate (R291). -/
def TxChar.disturb (c : TxChar) : TxChar := { c with disturbed := true }

/-- One reset step. It does not reach the UART or the clock. If it changes `baud_out`, the characters still in
the transmitter are marked, since what they put on the wire is then a draw (R291, assumption log 14). -/
def State.resetStep (s : State) : State :=
  { s with
    block := s.block.reset
    uart :=
      if s.block.baudOut = Config.baudReset then s.uart
      else
        { s.uart with
          txQueue := s.uart.txQueue.map TxChar.disturb
          txActive := s.uart.txActive.map TxChar.disturb } }

/-! ### The ports to the UART (R22) -/

/-- `TxPush(b)`: the byte joins the transmit queue, to go out at the rate current now (R73). The caller tests
`tx_ready`. -/
def State.txPush (b : Byte) (s : State) : State :=
  { s with uart := { s.uart with txQueue := s.uart.txQueue ++ [⟨b, s.block.baudOut, false⟩] } }

/-- `RxPop()`: the oldest received byte and the state without it; none when `rx_count` is 0 (R71). -/
def State.rxPop (s : State) : Option (Byte × State) :=
  match s.uart.rxFifo with
  | [] => none
  | b :: rest => some (b, { s with uart := { s.uart with rxFifo := rest } })

/-- `SetBaud(r)` (R7). -/
def Block.setBaud (rate : Word) (b : Block) : Block := { b with baudOut := rate }

/-- `f.state <- st`. -/
def Block.goto (st : FState) (b : Block) : Block := { b with f := { b.f with state := st } }

/-- `f.t0 <- now; f.state <- st`. -/
def Block.startTimer (now : Word) (st : FState) (b : Block) : Block :=
  { b with f := { b.f with t0 := now, state := st } }

/-- `reader_start(FID, LEN)` (R160). -/
def Block.startReader (b : Block) : Block := { b with r := b.r.start b.fid b.len }

/-- Whether the running deadline of length `t` is reached: `elapsed(f.t0) >= t` (R271). -/
def State.deadline (s : State) (t : Word) : Bool := decide (t ≤ elapsed s.nowMs s.block.f.t0)

end Sys2Proof.Machine
end

