-- ==== Sys2Proof/Machine/Sequencer.lean ====
section
/-! DEFINITION. Sequencer.lean: the steps of the sequencer, one definition per state of `f.state`
(41_break_generator.md R140 to R147, 43_framer_commands.md R208 to R219). A step whose condition does not hold
leaves the state as it is: the sequencer holds. -/

namespace Sys2Proof.Machine

/-- The outcome of a step of this machine. -/
abbrev StepOutcome := Host.Outcome State Fault Refusal

/-- BRK_FLUSH1 (R140). -/
def seqBrkFlush1 (s : State) : StepOutcome :=
  if s.txEmpty then
    .next (s.mapBlock fun b => (b.setBaud b.halfBaud).goto .brkSend)
  else .next s

/-- BRK_SEND (R141). -/
def seqBrkSend (s : State) : StepOutcome :=
  if s.uart.txReady then
    .next ((s.txPush 0x00).mapBlock (Block.goto .brkFlush2))
  else .next s

/-- BRK_FLUSH2 (R142). -/
def seqBrkFlush2 (s : State) : StepOutcome :=
  if s.txEmpty then
    .next (s.mapBlock fun b =>
      if b.f.op = .brk then (b.setBaud b.baud).startTimer s.nowMs .wakeDelay
      else (b.setBaud b.baud).goto .txSync)
  else .next s

/-- WAKE_DELAY (R147). -/
def seqWakeDelay (s : State) : StepOutcome :=
  if s.deadline s.params.tWakeMs then .next (s.mapBlock (Block.finish true)) else .next s

/-- TX_SYNC (R208). -/
def seqTxSync (s : State) : StepOutcome :=
  if s.uart.txReady then
    .next ((s.txPush 0x55).mapBlock (Block.goto .txPid))
  else .next s

/-- Where TX_PID goes once the PID is pushed (R209). -/
def Block.afterPid (now : Word) (b : Block) : Block :=
  if b.f.op = .read then b.startReader.startTimer now .rxPoll
  else if b.len = 0 then b.goto .txFlush
  else { b with f := { b.f with idx := 0, state := .txData } }

/-- TX_PID (R209). -/
def seqTxPid (s : State) : StepOutcome :=
  if s.uart.txReady then
    .next ((s.txPush s.block.framePid).mapBlock (Block.afterPid s.nowMs))
  else .next s

/-- Where TX_DATA goes once a data byte is pushed (R213). -/
def Block.afterData (b : Block) : Block :=
  { b with
    f := { b.f with
      idx := b.f.idx + 1
      state := if b.f.idx + 1 = b.len then .txCks else .txData } }

/-- TX_DATA, with `f.idx < LEN` (R213). -/
def seqTxData (s : State) : StepOutcome :=
  if s.uart.txReady then
    if s.block.f.idx < s.block.len then
      match s.block.data.get? s.block.f.idx.toNat with
      | some d => .next ((s.txPush d).mapBlock Block.afterData)
      | none => .fault (.noStepRule .txData)
    else .fault (.noStepRule .txData)
  else .next s

/-- TX_CKS (R214). -/
def seqTxCks (s : State) : StepOutcome :=
  if s.uart.txReady then
    .next ((s.txPush s.block.frameChecksum).mapBlock (Block.goto .txFlush))
  else .next s

/-- Where TX_FLUSH goes once the frame has been sent: verify first, then drain, else finish (R215, R218). -/
def Block.afterFlush (now : Word) (b : Block) : Block :=
  if b.ctrl.verify then b.startReader.startTimer now .rxPoll
  else if b.ctrl.drain then
    ({ b with f := { b.f with k := b.echoCount } } : Block).startTimer now .drain
  else b.finish true

/-- TX_FLUSH (R215). -/
def seqTxFlush (s : State) : StepOutcome :=
  if s.txEmpty then .next (s.mapBlock (Block.afterFlush s.nowMs)) else .next s

/-- Whether the echoed data equal the data sent: `∀ i < r.len: r.buf[i] = DATA[i]` (R211). -/
def Block.echoMatches (b : Block) : Bool :=
  b.r.buf.first b.r.len.toNat == b.data.first b.r.len.toNat

/-- RX_POLL: completion (R211). -/
def Block.complete (b : Block) : Block :=
  if b.f.op = .read then
    ({ b with data := Bytes8.copyFirst b.r.len.toNat b.r.buf b.data } : Block).finish true
  else if b.echoMatches then b.finish true
  else ({ b with status := { b.status with rbErr := true } } : Block).finish false

/-- RX_POLL: timeout (R212). -/
def Block.timeOut (now : Word) (b : Block) : Block :=
  let timed : Block := { b with status := { b.status with timeout := true } }
  if b.f.op = .read then timed.startTimer now .failDelay
  else ({ timed with status := { timed.status with rbErr := true } } : Block).finish false

/-- The reader after a byte, and CKS_ERR on a checksum mismatch (R171, R210). -/
def Block.received (st : ReaderStep) (b : Block) : Block :=
  { b with
    r := st.reader
    status := { b.status with cksErr := b.status.cksErr || st.mismatch } }

/-- RX_POLL (R210): completion, then the deadline, then one byte, else hold. -/
def seqRxPoll (s : State) : StepOutcome :=
  if s.block.r.complete then .next (s.mapBlock Block.complete)
  else if s.deadline Config.tFrameMs then .next (s.mapBlock (Block.timeOut s.nowMs))
  else
    match s.rxPop with
    | none => .next s
    | some (byte, s') =>
      match s.block.r.processByte byte with
      | some st => .next (s'.mapBlock (Block.received st))
      | none => .refused (.readerNoTransition s.block.r.state)

/-- DRAIN (R216): nothing left to drain, then the deadline, then one byte, else hold. -/
def seqDrain (s : State) : StepOutcome :=
  if s.block.f.k = 0 then .next (s.mapBlock (Block.finish true))
  else if s.deadline Config.tFrameMs then .next (s.mapBlock (Block.finish true))
  else
    match s.rxPop with
    | none => .next s
    | some (_, s') => .next (s'.mapBlock fun b => { b with f := { b.f with k := b.f.k - 1 } })

/-- FAIL_DELAY (R217). -/
def seqFailDelay (s : State) : StepOutcome :=
  if s.deadline s.params.tFailDelayMs then .next (s.mapBlock (Block.finish false)) else .next s

/-- RX_FLUSHING (R219). -/
def seqRxFlushing (s : State) : StepOutcome :=
  match s.rxPop with
  | some (_, s') => .next s'
  | none => .next (s.mapBlock (Block.finish true))

/-- The sequencer's step: the one `f.state` names (R25). In IDLE it takes none (R202). -/
def seqStep (s : State) : StepOutcome :=
  match s.block.f.state with
  | .idle => .next s
  | .brkFlush1 => seqBrkFlush1 s
  | .brkSend => seqBrkSend s
  | .brkFlush2 => seqBrkFlush2 s
  | .txSync => seqTxSync s
  | .txPid => seqTxPid s
  | .txData => seqTxData s
  | .txCks => seqTxCks s
  | .txFlush => seqTxFlush s
  | .rxPoll => seqRxPoll s
  | .drain => seqDrain s
  | .wakeDelay => seqWakeDelay s
  | .failDelay => seqFailDelay s
  | .rxFlushing => seqRxFlushing s

end Sys2Proof.Machine
end

