-- ==== Sys2Proof/Machine/Commands.lean ====
section
/-! DEFINITION. Commands.lean: the command words (30_encoding.md R96, R97, 43_framer_commands.md R200 to R207),
and the write of CMD, which carries one (10_state.md R28). The ignored bits of the word have no effect (R97).
A command only starts a transaction: the sequencer's steps carry it on (Sequencer.lean). -/

namespace Sys2Proof.Machine

/-- NOP: no change, also while BUSY (R203). -/
def execNop (_ign : BitVec 28) (s : State) : StepOutcome := .next s

/-- WRITE_FRAME (R204, R200, R201). -/
def execWriteFrame (_ign : BitVec 28) (s : State) : StepOutcome := .next (s.mapBlock (Block.command .write))

/-- READ_FRAME (R205, R200, R201). -/
def execReadFrame (_ign : BitVec 28) (s : State) : StepOutcome := .next (s.mapBlock (Block.command .read))

/-- SEND_BREAK (R206, R200, R201). -/
def execSendBreak (_ign : BitVec 28) (s : State) : StepOutcome := .next (s.mapBlock (Block.command .brk))

/-- RX_FLUSH (R207, R200, R201). -/
def execRxFlush (_ign : BitVec 28) (s : State) : StepOutcome := .next (s.mapBlock (Block.command .flush))

/-- The reserved opcode 0x5: sets CMD_ERR and changes nothing else, busy or not (R97, R200). -/
def execReserved5 (_ign : BitVec 28) (s : State) : StepOutcome := .next (s.mapBlock Block.refuse)

/-- The reserved opcode 0x6: sets CMD_ERR and changes nothing else, busy or not (R97, R200). -/
def execReserved6 (_ign : BitVec 28) (s : State) : StepOutcome := .next (s.mapBlock Block.refuse)

/-- The reserved opcode 0x7: sets CMD_ERR and changes nothing else, busy or not (R97, R200). -/
def execReserved7 (_ign : BitVec 28) (s : State) : StepOutcome := .next (s.mapBlock Block.refuse)

/-- The reserved opcode 0x8: sets CMD_ERR and changes nothing else, busy or not (R97, R200). -/
def execReserved8 (_ign : BitVec 28) (s : State) : StepOutcome := .next (s.mapBlock Block.refuse)

/-- The reserved opcode 0x9: sets CMD_ERR and changes nothing else, busy or not (R97, R200). -/
def execReserved9 (_ign : BitVec 28) (s : State) : StepOutcome := .next (s.mapBlock Block.refuse)

/-- The reserved opcode 0xA: sets CMD_ERR and changes nothing else, busy or not (R97, R200). -/
def execReservedA (_ign : BitVec 28) (s : State) : StepOutcome := .next (s.mapBlock Block.refuse)

/-- The reserved opcode 0xB: sets CMD_ERR and changes nothing else, busy or not (R97, R200). -/
def execReservedB (_ign : BitVec 28) (s : State) : StepOutcome := .next (s.mapBlock Block.refuse)

/-- The reserved opcode 0xC: sets CMD_ERR and changes nothing else, busy or not (R97, R200). -/
def execReservedC (_ign : BitVec 28) (s : State) : StepOutcome := .next (s.mapBlock Block.refuse)

/-- The reserved opcode 0xD: sets CMD_ERR and changes nothing else, busy or not (R97, R200). -/
def execReservedD (_ign : BitVec 28) (s : State) : StepOutcome := .next (s.mapBlock Block.refuse)

/-- The reserved opcode 0xE: sets CMD_ERR and changes nothing else, busy or not (R97, R200). -/
def execReservedE (_ign : BitVec 28) (s : State) : StepOutcome := .next (s.mapBlock Block.refuse)

/-- The reserved opcode 0xF: sets CMD_ERR and changes nothing else, busy or not (R97, R200). -/
def execReservedF (_ign : BitVec 28) (s : State) : StepOutcome := .next (s.mapBlock Block.refuse)

/-- `wr CMD, v`: the command whose opcode is `v[3:0]` (R200). -/
def execWrCmd (v : Word) (s : State) : StepOutcome :=
  let ign := cmdIgnored v
  match (cmdOpcode v).toNat with
  | 0x0 => execNop ign s
  | 0x1 => execWriteFrame ign s
  | 0x2 => execReadFrame ign s
  | 0x3 => execSendBreak ign s
  | 0x4 => execRxFlush ign s
  | 0x5 => execReserved5 ign s
  | 0x6 => execReserved6 ign s
  | 0x7 => execReserved7 ign s
  | 0x8 => execReserved8 ign s
  | 0x9 => execReserved9 ign s
  | 0xA => execReservedA ign s
  | 0xB => execReservedB ign s
  | 0xC => execReservedC ign s
  | 0xD => execReservedD ign s
  | 0xE => execReservedE ign s
  | _ => execReservedF ign s

end Sys2Proof.Machine
end

