-- ==== Sys2Proof/Machine/Reads.lean ====
section
/-! DEFINITION. Reads.lean: the sixteen reads of the register window (20_memory.md R63, 30_encoding.md R98).
Each returns the register as it stands at this step and changes nothing of the block. -/

namespace Sys2Proof.Machine

/-- `rd CTRL` (R27). -/
def execRdCtrl (s : State) : StepOutcome := .next (s.returnRead s.block.ctrlWord)

/-- `rd CMD` (R28: reads 0, starts nothing). -/
def execRdCmd (s : State) : StepOutcome := .next (s.returnRead s.block.cmdWord)

/-- `rd STATUS` (R29, R30: clears nothing). -/
def execRdStatus (s : State) : StepOutcome := .next (s.returnRead s.block.statusWord)

/-- `rd FID` (R31). -/
def execRdFid (s : State) : StepOutcome := .next (s.returnRead s.block.fidWord)

/-- `rd PID` (R32). -/
def execRdPid (s : State) : StepOutcome := .next (s.returnRead s.block.pidWord)

/-- `rd LEN` (R33). -/
def execRdLen (s : State) : StepOutcome := .next (s.returnRead s.block.lenWord)

/-- `rd CKS` (R34). -/
def execRdCks (s : State) : StepOutcome := .next (s.returnRead s.block.cksWord)

/-- `rd BAUD` (R35). -/
def execRdBaud (s : State) : StepOutcome := .next (s.returnRead s.block.baudWord)

/-- `rd DATA0` (R36). -/
def execRdData0 (s : State) : StepOutcome := .next (s.returnRead (dataWord s.block.data.b0))

/-- `rd DATA1` (R36). -/
def execRdData1 (s : State) : StepOutcome := .next (s.returnRead (dataWord s.block.data.b1))

/-- `rd DATA2` (R36). -/
def execRdData2 (s : State) : StepOutcome := .next (s.returnRead (dataWord s.block.data.b2))

/-- `rd DATA3` (R36). -/
def execRdData3 (s : State) : StepOutcome := .next (s.returnRead (dataWord s.block.data.b3))

/-- `rd DATA4` (R36). -/
def execRdData4 (s : State) : StepOutcome := .next (s.returnRead (dataWord s.block.data.b4))

/-- `rd DATA5` (R36). -/
def execRdData5 (s : State) : StepOutcome := .next (s.returnRead (dataWord s.block.data.b5))

/-- `rd DATA6` (R36). -/
def execRdData6 (s : State) : StepOutcome := .next (s.returnRead (dataWord s.block.data.b6))

/-- `rd DATA7` (R36). -/
def execRdData7 (s : State) : StepOutcome := .next (s.returnRead (dataWord s.block.data.b7))

end Sys2Proof.Machine
end

