-- ==== Sys2Proof/Machine/Writes.lean ====
section
/-! DEFINITION. Writes.lean: the writes of the register window but for CMD (20_memory.md R64 to R66,
30_encoding.md R98). -/

namespace Sys2Proof.Machine

/-- `wr CTRL, v` (R27, R66). -/
def execWrCtrl (v : Word) (s : State) : StepOutcome := .next (s.mapBlock (Block.writeCtrl v))

/-- `wr STATUS, v`: write 1 to clear (R30, R65). -/
def execWrStatus (v : Word) (s : State) : StepOutcome := .next (s.mapBlock (Block.acknowledge v))

/-- `wr FID, v` (R31, R66). -/
def execWrFid (v : Word) (s : State) : StepOutcome := .next (s.mapBlock (Block.writeFid v))

/-- `wr PID, v`: ignored (R32, R65). -/
def execWrPid (_v : Word) (s : State) : StepOutcome := .next s

/-- `wr LEN, v` (R33, R66). -/
def execWrLen (v : Word) (s : State) : StepOutcome := .next (s.mapBlock (Block.writeLen v))

/-- `wr CKS, v`: ignored (R34, R65). -/
def execWrCks (_v : Word) (s : State) : StepOutcome := .next s

/-- `wr BAUD, v` (R35, R38, R66). -/
def execWrBaud (v : Word) (s : State) : StepOutcome := .next (s.mapBlock (Block.writeBaud v))

/-- `wr DATA0, v` (R36, R66). -/
def execWrData0 (v : Word) (s : State) : StepOutcome :=
  .next (s.mapBlock (Block.writeData fun d => { d with b0 := dataField v }))

/-- `wr DATA1, v` (R36, R66). -/
def execWrData1 (v : Word) (s : State) : StepOutcome :=
  .next (s.mapBlock (Block.writeData fun d => { d with b1 := dataField v }))

/-- `wr DATA2, v` (R36, R66). -/
def execWrData2 (v : Word) (s : State) : StepOutcome :=
  .next (s.mapBlock (Block.writeData fun d => { d with b2 := dataField v }))

/-- `wr DATA3, v` (R36, R66). -/
def execWrData3 (v : Word) (s : State) : StepOutcome :=
  .next (s.mapBlock (Block.writeData fun d => { d with b3 := dataField v }))

/-- `wr DATA4, v` (R36, R66). -/
def execWrData4 (v : Word) (s : State) : StepOutcome :=
  .next (s.mapBlock (Block.writeData fun d => { d with b4 := dataField v }))

/-- `wr DATA5, v` (R36, R66). -/
def execWrData5 (v : Word) (s : State) : StepOutcome :=
  .next (s.mapBlock (Block.writeData fun d => { d with b5 := dataField v }))

/-- `wr DATA6, v` (R36, R66). -/
def execWrData6 (v : Word) (s : State) : StepOutcome :=
  .next (s.mapBlock (Block.writeData fun d => { d with b6 := dataField v }))

/-- `wr DATA7, v` (R36, R66). -/
def execWrData7 (v : Word) (s : State) : StepOutcome :=
  .next (s.mapBlock (Block.writeData fun d => { d with b7 := dataField v }))

end Sys2Proof.Machine
end

