-- ==== Sys2Proof/Machine/Dispatch.lean ====
section
/-! DEFINITION. Dispatch.lean: one arm per instruction. -/

namespace Sys2Proof.Machine

def exec (i : Instr) (s : State) : Host.Outcome State Fault Refusal :=
  match i with
  | .nop ign => Sys2Proof.Machine.execNop ign s
  | .writeFrame ign => Sys2Proof.Machine.execWriteFrame ign s
  | .readFrame ign => Sys2Proof.Machine.execReadFrame ign s
  | .sendBreak ign => Sys2Proof.Machine.execSendBreak ign s
  | .rxFlush ign => Sys2Proof.Machine.execRxFlush ign s
  | .reserved5 ign => Sys2Proof.Machine.execReserved5 ign s
  | .reserved6 ign => Sys2Proof.Machine.execReserved6 ign s
  | .reserved7 ign => Sys2Proof.Machine.execReserved7 ign s
  | .reserved8 ign => Sys2Proof.Machine.execReserved8 ign s
  | .reserved9 ign => Sys2Proof.Machine.execReserved9 ign s
  | .reservedA ign => Sys2Proof.Machine.execReservedA ign s
  | .reservedB ign => Sys2Proof.Machine.execReservedB ign s
  | .reservedC ign => Sys2Proof.Machine.execReservedC ign s
  | .reservedD ign => Sys2Proof.Machine.execReservedD ign s
  | .reservedE ign => Sys2Proof.Machine.execReservedE ign s
  | .reservedF ign => Sys2Proof.Machine.execReservedF ign s
  | .rdCtrl => Sys2Proof.Machine.execRdCtrl s
  | .rdCmd => Sys2Proof.Machine.execRdCmd s
  | .rdStatus => Sys2Proof.Machine.execRdStatus s
  | .rdFid => Sys2Proof.Machine.execRdFid s
  | .rdPid => Sys2Proof.Machine.execRdPid s
  | .rdLen => Sys2Proof.Machine.execRdLen s
  | .rdCks => Sys2Proof.Machine.execRdCks s
  | .rdBaud => Sys2Proof.Machine.execRdBaud s
  | .rdData0 => Sys2Proof.Machine.execRdData0 s
  | .rdData1 => Sys2Proof.Machine.execRdData1 s
  | .rdData2 => Sys2Proof.Machine.execRdData2 s
  | .rdData3 => Sys2Proof.Machine.execRdData3 s
  | .rdData4 => Sys2Proof.Machine.execRdData4 s
  | .rdData5 => Sys2Proof.Machine.execRdData5 s
  | .rdData6 => Sys2Proof.Machine.execRdData6 s
  | .rdData7 => Sys2Proof.Machine.execRdData7 s
  | .wrCtrl v => Sys2Proof.Machine.execWrCtrl v s
  | .wrCmd v => Sys2Proof.Machine.execWrCmd v s
  | .wrStatus v => Sys2Proof.Machine.execWrStatus v s
  | .wrFid v => Sys2Proof.Machine.execWrFid v s
  | .wrPid v => Sys2Proof.Machine.execWrPid v s
  | .wrLen v => Sys2Proof.Machine.execWrLen v s
  | .wrCks v => Sys2Proof.Machine.execWrCks v s
  | .wrBaud v => Sys2Proof.Machine.execWrBaud v s
  | .wrData0 v => Sys2Proof.Machine.execWrData0 v s
  | .wrData1 v => Sys2Proof.Machine.execWrData1 v s
  | .wrData2 v => Sys2Proof.Machine.execWrData2 v s
  | .wrData3 v => Sys2Proof.Machine.execWrData3 v s
  | .wrData4 v => Sys2Proof.Machine.execWrData4 v s
  | .wrData5 v => Sys2Proof.Machine.execWrData5 v s
  | .wrData6 v => Sys2Proof.Machine.execWrData6 v s
  | .wrData7 v => Sys2Proof.Machine.execWrData7 v s

end Sys2Proof.Machine
end

