-- ==== Sys2Proof/Machine/UartPort.lean ====
section
/-! DEFINITION. UartPort.lean: the moves of the UART collaborator (10_state.md R22, R40, 20_memory.md R71 to
R73). They change the UART alone. A move with nothing to act on changes nothing. -/

namespace Sys2Proof.Machine

/-- The bytes that are not marked as lost, in their order. -/
def keptBytes : List Bool → List Byte → List Byte
  | [], bs => bs
  | _ :: _, [] => []
  | true :: ms, _ :: bs => keptBytes ms bs
  | false :: ms, b :: bs => b :: keptBytes ms bs

/-- A byte arrives at the receive FIFO. At a full FIFO what is kept is a subsequence that fits, and which one is the
environment's draw (R40, 93_implementation_defined.md section 2, assumption log 13). -/
def Uart.arrive (depth : Nat) (b : Byte) (draw : OverflowDraw) (u : Uart) : Uart :=
  if u.rxFifo.length < depth then { u with rxFifo := u.rxFifo ++ [b] }
  else { u with rxFifo := (keptBytes draw.lost (u.rxFifo ++ [b])).take depth }

/-- A byte starts on the bus, behind every byte that started before it (R72). -/
def Uart.busStart (b : Byte) (u : Uart) : Uart := { u with onBus := u.onBus ++ [b] }

/-- The oldest pushed character starts on the bus; with ECHO its echo is a byte on the bus from here on (R72,
R145, assumption log 12). One character goes out at a time. -/
def Uart.startOne (echo : Bool) (u : Uart) : Uart :=
  match u.txActive, u.txQueue with
  | none, c :: rest =>
    let u' := { u with txQueue := rest, txActive := some c }
    if echo then u'.busStart c.byte else u'
  | _, _ => u

/-- The character going out leaves the transmitter, stop bit included (R73). -/
def Uart.sendOne (u : Uart) : Uart :=
  match u.txActive with
  | none => u
  | some c => { u with txActive := none, line := u.line ++ [c] }

/-- What the receiver makes of the byte `b`. -/
def ArrivalDraw.received (b : Byte) : ArrivalDraw → Option Byte
  | .intact => some b
  | .damaged x => some x
  | .lost => none

/-- The byte that started on the bus first reaches the receiver, intact, damaged or not at all (R72,
93_implementation_defined.md section 2, assumption log 12). -/
def Uart.receiveOne (depth : Nat) (draw : ArrivalDraw) (overflow : OverflowDraw) (u : Uart) : Uart :=
  match u.onBus with
  | [] => u
  | b :: rest =>
    let u' := { u with onBus := rest }
    match draw.received b with
    | some x => u'.arrive depth x overflow
    | none => u'

/-- A change of the UART alone. -/
def State.mapUart (g : Uart → Uart) (s : State) : State := { s with uart := g s.uart }

end Sys2Proof.Machine
end

