-- ==== Sys2Proof/Machine/Agents.lean ====
section
/-! DEFINITION. Agents.lean: what each agent's move does (10_state.md R20), and the fetch of a host line. -/

namespace Sys2Proof.Machine

/-- The offset an access is made at: that of its transaction word; a command word is written to CMD, offset 4
(30_encoding.md R103). -/
def wordOffset : HostWord → BitVec 6
  | .bus txn _ => txnOffset txn
  | .cmd _ => 0x04

/-- The register access port with `rst` at 0: an aligned 32-bit access is the instruction its word decodes to;
every other access is the fault of 20_memory.md R62. -/
def hostAccess (width : AccessWidth) (word : HostWord) (s : State) : StepOutcome :=
  match width with
  | .w32 =>
    match decode word with
    | .ok i => exec i s
    | .error (.misaligned off) => .fault (.busError off)
  | .w8 => .fault (.busError (wordOffset word))
  | .w16 => .fault (.busError (wordOffset word))
  | .w64 => .fault (.busError (wordOffset word))

/-- What is left of an access made while `rst` is 1: the reset state `r`, and the value a read returned. -/
def keepRead (r : State) : StepOutcome → StepOutcome
  | .next t => .next { r with rdata := t.rdata }
  | .fault f => .fault f
  | .refused why => .refused why

/-- A host access. While `rst` is 1 the block is reset at this step too: a read returns the reset value of its
register and a write has no lasting effect (70_reset_and_hazards.md R290, assumption log 15). -/
def hostMove (width : AccessWidth) (word : HostWord) (s : State) : StepOutcome :=
  if s.rst then keepRead s.resetStep (hostAccess width word s.resetStep) else hostAccess width word s

/-- A host access at a platform address: inside the window at LIN_BASE it is the access at the offset (R60);
outside, it is not the block's (R61, assumption log 21). That no access inside the window is denied on the way to
the block is the model's choice (R270 leaves it to the platform, assumption log 27). -/
def hostMoveAt (width : AccessWidth) (write : Bool) (addr value : Word) (s : State) : StepOutcome :=
  let rel := addr - s.params.linBase
  if rel < 64 then hostMove width (.bus (mkTxn write (rel.setWidth 6)) value) s
  else .refused (.outsideWindow addr)

/-- The block's own move: a reset step while `rst` is 1, else a sequencer step (R290). -/
def blockMove (s : State) : StepOutcome := if s.rst then .next s.resetStep else seqStep s

/-- An input of the environment changes; while `rst` is 1 the step is also a reset step (R290). -/
def envMove (s : State) : StepOutcome := if s.rst then .next s.resetStep else .next s

/-- One move (R20). -/
def move (e : Event) (s : State) : StepOutcome :=
  match e with
  | .host width word => hostMove width word s
  | .hostAt width write addr value => hostMoveAt width write addr value s
  | .sequencer => blockMove s
  | .rst level => envMove { s with rst := level }
  | .clock ms => envMove { s with nowMs := s.nowMs + ms }
  | .txReady level => envMove (s.mapUart fun u => { u with txReady := level })
  | .txStart => envMove (s.mapUart (Uart.startOne s.params.echo))
  | .txDone => envMove (s.mapUart Uart.sendOne)
  | .busStart b => envMove (s.mapUart (Uart.busStart b))
  | .rxArrive draw overflow => envMove (s.mapUart (Uart.receiveOne s.params.rxDepth draw overflow))

/-- The moves still to come, next one first: those of `script`, and once it is done those of `forever`, from their
start (assumption log 26). -/
def State.pending (s : State) : List Event :=
  match s.script with
  | [] => s.forever
  | e :: rest => e :: rest

/-- The next move; where none is to come, the block's own. -/
def State.nextMove (s : State) : Event :=
  match s.pending with
  | [] => .sequencer
  | e :: _ => e

/-- The state with its next move taken out, ready to be made. -/
def State.takeMove (s : State) : State := { s with script := s.pending.tail }

/-- The state with the host line `word` as its very next move, and `rst` at 0, so that the access has its
effect. -/
def State.placeLine (word : HostWord) (s : State) : State :=
  { s with rst := false, script := .host .w32 word :: s.script }

end Sys2Proof.Machine
end

