-- ==== Sys2Proof/Machine/Step.lean ====
section
/-! DEFINITION. Step.lean: one step of the machine makes the next move (assumption log 3, 4, 26). -/

namespace Sys2Proof.Machine

/-- One step. -/
def step (s : State) : Host.Outcome State Fault Refusal := move s.nextMove s.takeMove

/-- The state whose next step runs the instruction a word of the opcode table stands for. -/
def State.withFetchWord (s : State) (nbits w : Nat) : State := s.placeLine (tableHostWord nbits w)

end Sys2Proof.Machine
end

