-- ==== Sys2Proof/Machine/Wire.lean ====
section
/-! DEFINITION. Wire.lean: what a character is on the line, and wire times in bit times (20_memory.md R69,
30_encoding.md R93, 41_break_generator.md R143, 70_reset_and_hazards.md R308, R309). No step of the machine
depends on anything here (R307, R308; assumption log 25). -/

namespace Sys2Proof.Machine

/-- The level of the line: dominant carries 0, recessive carries 1 (00_scope.md R8). -/
inductive Level where
  | dominant
  | recessive
deriving DecidableEq, Repr

/-- The level that carries a bit. -/
def Level.ofBit : Bool → Level
  | false => .dominant
  | true => .recessive

/-- The 8N1 character of a byte: start bit, eight data bits with bit 0 first, stop bit (R69). -/
def characterLevels (b : Byte) : List Level :=
  [.dominant] ++ (List.range 8).map (fun i => Level.ofBit (b.getLsbD i)) ++ [.recessive]

/-- What a character puts on the line: one level per bit at the rate of its push. None for a character a reset
disturbed: its wire bits are the environment's draw (R291). -/
def TxChar.levels (c : TxChar) : Option (List Level) :=
  if c.disturbed then none else some (characterLevels c.byte)

/-- What the block's transmitter puts on the line between two moves. -/
inductive OnLine where
  /-- The line stays at one level, for as long as nothing changes. -/
  | steady (level : Level)
  /-- One level per bit, at a bit rate. -/
  | bits (levels : List Level) (rate : Word)
  /-- The environment's draw (R291, assumption log 14). -/
  | drawn
deriving DecidableEq, Repr

/-- The character going out, bit by bit at the rate of its push. While none goes out the line stays recessive: after
the break until the Sync character starts (R143), and in every other gap (assumption log 25). What another node
puts on the line is its own. -/
def Uart.onLine (u : Uart) : OnLine :=
  match u.txActive with
  | none => .steady .recessive
  | some c =>
    match c.levels with
    | some ls => .bits ls c.baud
    | none => .drawn

/-- How many bits the line stays dominant from its start. -/
def dominantRun (ls : List Level) : Nat := (ls.takeWhile (· == .dominant)).length

/-- `n` bits at the rate `rate` last as long as `m` bits at the rate `baud`: `n / rate = m / baud` seconds. -/
def SameDuration (n : Nat) (rate : Word) (m : Nat) (baud : Word) : Prop := n * baud.toNat = m * rate.toNat

/-- Nominal bit times of the break with its delimiter (R308). -/
def breakBitTimes : Nat := 20

/-- Nominal bit times of one character at the full rate (R308). -/
def charBitTimes : Nat := 10

/-- Nominal bit times of a header: Break, Sync, PID (R308). -/
def headerBitTimes : Nat := breakBitTimes + 2 * charBitTimes

/-- Nominal bit times of a frame with `n` data bytes (R308, R90, R91). -/
def frameBitTimes (n : Nat) : Nat :=
  if n = 0 then headerBitTimes else headerBitTimes + (n + 1) * charBitTimes

/-- The least nominal bit times from the start of a READ_FRAME's deadline to its last byte (R309). -/
def readWindowBitTimes (m : Nat) : Nat := 2 * charBitTimes + (m + 1) * charBitTimes

/-- `n` bit times at `baud` last longer than `ms` milliseconds. -/
def LongerThanMs (n baud ms : Nat) : Prop := ms * baud < n * 1000

end Sys2Proof.Machine
end

