-- ==== Sys2Proof/Safety.lean ====
section
/-! DEFINITION. Safety.lean: the invariant of the machine, and the words the statements are made of. -/

namespace Sys2Proof.Machine

/-! ### The invariant -/

/-- Which command can be in flight in which state of the sequencer (10_state.md R37, with the entry rules of
41_break_generator.md and 43_framer_commands.md). -/
def opFits (st : FState) (op : Op) : Bool :=
  match st with
  | .idle => true
  | .brkFlush1 => op != .flush
  | .brkSend => op != .flush
  | .brkFlush2 => op != .flush
  | .txSync => op.checksLen
  | .txPid => op.checksLen
  | .txData => op == .write
  | .txCks => op == .write
  | .txFlush => op == .write
  | .rxPoll => op.checksLen
  | .drain => op == .write
  | .wakeDelay => op == .brk
  | .failDelay => op == .read
  | .rxFlushing => op == .flush

/-- Whether the break is under way at the half rate (R140, R142). -/
def FState.halfRate (st : FState) : Bool := st == .brkSend || st == .brkFlush2

/-- The operands of the command in flight are legal (R201). -/
def Block.OperandsLegal (b : Block) : Prop :=
  b.f.state ≠ .idle →
    (b.f.op.checksLen = true → b.len ≤ 8) ∧ (b.f.op.checksBaud = true → 2 ≤ b.baud)

/-- The sequencer's counters are in range where a rule reads them (R213, R214, R216). -/
def Block.CountersLegal (b : Block) : Prop :=
  (b.f.state = .txData → b.f.idx < b.len) ∧
  (b.f.state = .txCks → b.len ≠ 0) ∧
  (b.f.state = .drain → b.f.k ≤ 12)

/-- `baud_out` is BAUD, but for the half rate of the break (R38, R140, R142). -/
def Block.RateLegal (b : Block) : Prop :=
  b.baudOut = if b.f.state.halfRate then b.halfBaud else b.baud

/-- The reader's fields fit each other (R39, R160 to R173). -/
def Reader.Legal (r : Reader) : Prop :=
  r.len ≤ 8 ∧ r.pid = Machine.pid r.fid ∧
  match r.state with
  | .waitForBreak => r.count = 0
  | .waitForSync => r.count = 0
  | .waitForPid => r.count = 0
  | .waitForData => r.count < r.len ∨ (r.len = 0 ∧ r.count = 0)
  | .waitForChecksum => r.count = r.len ∧ r.len ≠ 0
  | .frameComplete => r.count = r.len ∧ r.len ≠ 0

/-- While it polls, the reader runs for the frame of the registers (R209, R215). -/
def Block.ReaderStarted (b : Block) : Prop :=
  b.f.state = .rxPoll → b.r.len = b.len ∧ b.r.fid = b.fid

/-- The outcome flags: none of a transaction is set while it runs, but TIMEOUT in FAIL_DELAY and CKS_ERR
(R201, R202, R212, R267); and SUCCESS stands beside no failure flag (R265). -/
def Block.OutcomeLegal (b : Block) : Prop :=
  (b.f.state ≠ .idle →
    b.status.done = false ∧ b.status.success = false ∧ b.status.rbErr = false ∧
    b.status.lenErr = false ∧ b.status.cfgErr = false ∧
    (b.f.state ≠ .failDelay → b.status.timeout = false)) ∧
  (b.status.success = true →
    b.status.timeout = false ∧ b.status.rbErr = false ∧ b.status.lenErr = false ∧
    b.status.cfgErr = false)

/-- The block's invariant. -/
structure Block.Inv (b : Block) : Prop where
  op : opFits b.f.state b.f.op = true
  operands : b.OperandsLegal
  counters : b.CountersLegal
  rate : b.RateLegal
  reader : b.r.Legal
  started : b.ReaderStarted
  outcome : b.OutcomeLegal

/-- The receive FIFO fits its capacity (R40). -/
def UartLegal (p : Params) (u : Uart) : Prop := u.rxFifo.length ≤ p.rxDepth

/-- `T_WAKE_MS` is in the range a model may set it to (00_scope.md R4). -/
def Params.Legal (p : Params) : Prop := Config.tWakeMin ≤ p.tWakeMs ∧ p.tWakeMs ≤ Config.tWakeMax

/-- The invariant of the machine. -/
structure State.Inv (s : State) : Prop where
  block : s.block.Inv
  uart : UartLegal s.params s.uart
  params : s.params.Legal

/-! ### Frames on the wire -/

/-- A character sent undisturbed. -/
def sentChar (baud : Word) (b : Byte) : TxChar := ⟨b, baud, false⟩

/-- The header on the wire: the Break at the half rate, then Sync and PID (30_encoding.md R90,
43_framer_commands.md R222). -/
def headerChars (fid : FrameId) (baud : Word) : List TxChar :=
  [sentChar (baud >>> 1) 0x00, sentChar baud 0x55, sentChar baud (pid fid)]

/-- The characters of a frame: with no data, the header alone (R91); else header, data, checksum (R90). -/
def frameChars (fid : FrameId) (data : List Byte) (baud : Word) : List TxChar :=
  headerChars fid baud ++
    (if data = [] then [] else (data ++ [frameCks fid data]).map (sentChar baud))

/-- Everything pushed so far, oldest first: what has left the transmitter, what is going out, what waits. -/
def State.pushed (s : State) : List TxChar := s.uart.line ++ s.uart.txActive.toList ++ s.uart.txQueue

/-- The bytes pushed so far. -/
def State.pushedBytes (s : State) : List Byte := s.pushed.map TxChar.byte

/-- A block that accepts `op`: idle, with legal operands (R200, R201). -/
def Block.Accepts (op : Op) (b : Block) : Prop :=
  b.busy = false ∧ b.badLen op = false ∧ b.badBaud op = false

/-- A move of the host that writes CMD: the transaction `wr CMD`, its pseudo-instruction, or the same access at
its platform address. -/
def Event.WritesCmd (p : Params) : Event → Prop
  | .host _ (.bus txn _) => txn = 0x44
  | .host _ (.cmd _) => True
  | .hostAt _ write addr _ => write = true ∧ addr = p.linBase + 4
  | _ => False

/-- A move of the host that writes STATUS with a 1 in bit `n` of the value. -/
def Event.ClearsFlag (p : Params) (n : Nat) : Event → Prop
  | .host _ (.bus txn value) => txn = 0x48 ∧ value.getLsbD n = true
  | .hostAt _ write addr value => write = true ∧ addr = p.linBase + 8 ∧ value.getLsbD n = true
  | _ => False

/-- `k` steps, stopping at the first fault or refusal. -/
def runSteps : Nat → State → StepOutcome
  | 0, s => .next s
  | k + 1, s =>
    match step s with
    | .next t => runSteps k t
    | .fault f => .fault f
    | .refused r => .refused r

/-- `n` rounds of a sequencer step and a character starting and leaving: a UART that keeps up. -/
def sendRounds (n : Nat) : List Event :=
  (List.replicate n [Event.sequencer, Event.txStart, Event.txDone]).flatten

/-- A byte on the bus arrives as it is; none is marked as lost. -/
def arriveIntact : Event := .rxArrive .intact ⟨[]⟩

/-- The bytes of `bs` start on the bus, one move each. -/
def busStarts (bs : List Byte) : List Event := bs.map Event.busStart

/-- The bytes of `bs` start on the bus and arrive, one after the other. -/
def arrivals (bs : List Byte) : List Event := (bs.map fun b => [Event.busStart b, arriveIntact]).flatten

/-- The value register number `n` reads after reset, by the table of 70_reset_and_hazards.md R292. -/
def resetRegister (n : Nat) : Word :=
  match n with
  | 0 => 0x00000001
  | 4 => 0x00000080
  | 5 => 0x00000008
  | 6 => 0x0000007F
  | 7 => 0x00004B00
  | _ => 0x00000000

/-! ### Moves of the UART and the other nodes -/

/-- A move of the UART collaborator or of another node: one that changes the UART alone. -/
def Event.OfUart : Event → Prop
  | .host _ _ => False
  | .hostAt _ _ _ _ => False
  | .sequencer => False
  | .rst _ => False
  | .clock _ => False
  | .txReady _ => True
  | .txStart => True
  | .txDone => True
  | .busStart _ => True
  | .rxArrive _ _ => True

/-- What R40, R72, R73 and 93_implementation_defined.md section 2 let the move `e` make of the UART `u`: `u'`
(assumption log 12, 13). No other agent's move is one of these. -/
def Uart.MovesTo (p : Params) (e : Event) (u u' : Uart) : Prop :=
  match e with
  | .txReady level => u' = { u with txReady := level }
  | .txStart =>
    (∀ c queue, u.txActive = none → u.txQueue = c :: queue →
      u' = { u with
        txQueue := queue, txActive := some c
        onBus := u.onBus ++ (if p.echo = true then [c.byte] else []) }) ∧
    ((u.txActive ≠ none ∨ u.txQueue = []) → u' = u)
  | .txDone =>
    (∀ c, u.txActive = some c → u' = { u with txActive := none, line := u.line ++ [c] }) ∧
    (u.txActive = none → u' = u)
  | .busStart b => u' = { u with onBus := u.onBus ++ [b] }
  | .rxArrive how _ =>
    (u.onBus = [] → u' = u) ∧
    ∀ b bus, u.onBus = b :: bus →
      (how = .lost → u' = { u with onBus := bus }) ∧
      ∀ c, ((how = .intact ∧ c = b) ∨ how = .damaged c) →
        ∃ fifo, u' = { u with onBus := bus, rxFifo := fifo } ∧
          (u.rxFifo.length < p.rxDepth → fifo = u.rxFifo ++ [c]) ∧
          (p.rxDepth ≤ u.rxFifo.length →
            fifo.length ≤ p.rxDepth ∧ fifo.Sublist (u.rxFifo ++ [c]))
  | .host _ _ => False
  | .hostAt _ _ _ _ => False
  | .sequencer => False
  | .rst _ => False
  | .clock _ => False

/-! ### What no rule reads -/

/-- A buffer with the bytes from index `n` on blanked. -/
def Bytes8.blankFrom (n : Nat) (x : Bytes8) : Bytes8 := Bytes8.copyFirst n x Bytes8.zero

/-- The block with every field blanked that no rule reads before it is written again: the fields R37 and R39
give no reset value, outside the states that read them (70_reset_and_hazards.md R290). -/
def Block.visible (b : Block) : Block :=
  { b with
    f :=
      { b.f with
        op := if b.f.state = .idle then .write else b.f.op
        idx := if b.f.state = .txData then b.f.idx else 0
        k := if b.f.state = .drain then b.f.k else 0
        t0 :=
          if b.f.state = .rxPoll ∨ b.f.state = .drain ∨ b.f.state = .wakeDelay ∨ b.f.state = .failDelay
          then b.f.t0 else 0 }
    r :=
      if b.f.state = .rxPoll then { b.r with buf := b.r.buf.blankFrom b.r.count.toNat }
      else { b.r with buf := Bytes8.zero, fid := 0, pid := 0x80, len := 0 } }

/-- The state with those fields blanked. -/
def State.visible (s : State) : State := { s with block := s.block.visible }

/-- The outcome of a step with those fields blanked. -/
def visibleOutcome : StepOutcome → StepOutcome
  | .next t => .next t.visible
  | .fault f => .fault f
  | .refused r => .refused r

end Sys2Proof.Machine
end

