-- ==== Sys2Proof/Certificates/Slice0/Obligations.lean ====
section
/-! DEFINITION. Obligations.lean: the statements for the provers. Each docstring names the rule of spec/ it
formalises, or the rules it follows from. Every statement about a state is about every state, so about every value
of the OPEN parameters (assumption log 7) and of the fields with no reset value (log 5). -/

open Sys2Proof Sys2Proof.Machine

/-- Decoding the encoding of any instruction gives it back, every operand bit kept (30_encoding.md R96,
30_encoding.md R97, 30_encoding.md R98). A command line as a word of its own is the model's form (assumption log
2). -/
def Obligations.DecodeInvertsEncode : Prop :=
  ∀ i : Instr, i.wellFormed = true → decode (encode i) = .ok i

/-- Every command word and every aligned transaction word is the encoding of exactly one instruction (30_encoding.md
R96, 30_encoding.md R97, 30_encoding.md R99). A command line as a word of its own is the model's form
(assumption log 2). -/
def Obligations.EveryWordNamesOneInstruction : Prop :=
  (∀ w : Word, ∃! i : Instr, decode (.cmd w) = .ok i ∧ encode i = .cmd w) ∧
  (∀ (txn : BitVec 7) (v : Word), txn.toNat % 4 = 0 →
    ∃! i : Instr, decode (.bus txn v) = .ok i ∧
      encode i = .bus txn (if 64 ≤ txn.toNat then v else 0))

/-- Words written out from the spec's tables decode to the instructions they stand for (30_encoding.md R96,
30_encoding.md R98, 95_test_vectors.md section 8). A command line as a word of its own is the model's form
(assumption log 2). -/
def Obligations.WordsFromTheTablesDecode : Prop :=
  decode (.cmd 0x00000000) = .ok (.nop 0) ∧
  decode (.cmd 0x00000012) = .ok (.readFrame 1) ∧
  decode (.cmd 0x00000003) = .ok (.sendBreak 0) ∧
  decode (.cmd 0x00000005) = .ok (.reserved5 0) ∧
  decode (.bus 0x08 0) = .ok .rdStatus ∧
  decode (.bus 0x3C 0) = .ok .rdData7 ∧
  decode (.bus 0x4C 0x3C) = .ok (.wrFid 0x3C) ∧
  decode (.bus 0x44 0x1) = .ok (.wrCmd 0x1) ∧
  decode (.bus 0x50 0xFF) = .ok (.wrPid 0xFF)

/-- When the next move is a 32-bit host access whose word decodes to i and rst is 0, the step is exec of i
(10_state.md R20, 20_memory.md R74, 30_encoding.md R98). The moves to come as lists of the state are the model's
form (assumption log 3, 26). -/
def Obligations.StepRunsDecodedInstruction : Prop :=
  ∀ (s : State) (word : HostWord) (i : Instr) (rest : List Event),
    s.rst = false → s.pending = .host .w32 word :: rest → decode word = .ok i →
    i.wellFormed = true →
    step s = exec i { s with script := rest }

/-- A sequencer move is one sequencer step while rst is 0, and one reset step while rst is 1 (10_state.md R20,
70_reset_and_hazards.md R290). That the block moves where no move is to come is the model's choice (assumption
log 3). -/
def Obligations.StepRunsSequencerOrReset : Prop :=
  ∀ (s : State) (rest : List Event),
    (s.pending = .sequencer :: rest ∨ (s.pending = [] ∧ rest = [])) →
    (s.rst = false → step s = seqStep { s with script := rest }) ∧
    (s.rst = true → step s = .next (State.resetStep { s with script := rest }))

/-- A misaligned access, or one that is not 32 bits wide, is the fault BusError(off) (R263). -/
def Obligations.UndefinedAccessIsBusError : Prop :=
  ∀ (s : State) (width : AccessWidth) (txn : BitVec 7) (v : Word) (rest : List Event),
    s.pending = .host width (.bus txn v) :: rest →
    ((width ≠ .w32 ∨ txn.toNat % 4 ≠ 0) → step s = .fault (.busError (BitVec.ofNat 6 txn.toNat))) ∧
    ((width = .w32 ∧ txn.toNat % 4 = 0) → ∀ off, step s ≠ .fault (.busError off))

/-- A command line and an access at a platform address act as the access by offset does; outside the window nothing
acts on the block (60_exceptions.md R263, 20_memory.md R60, 20_memory.md R61, 20_memory.md R62, 30_encoding.md
R103). The two ways of writing an access, and that refusal, are the model's, and so is that no access inside the
window is denied (assumption log 2, 21, 27). -/
def Obligations.EveryPathToTheWindowActsAlike : Prop :=
  (∀ (s : State) (width : AccessWidth) (v : Word) (rest : List Event),
    s.pending = .host width (.cmd v) :: rest →
    step s = step { s with script := .host width (.bus 0x44 v) :: rest } ∧
    (width ≠ .w32 → step s = .fault (.busError 4)) ∧
    (width = .w32 → ∀ off, step s ≠ .fault (.busError off))) ∧
  (∀ (s : State) (width : AccessWidth) (write : Bool) (addr v : Word) (rest : List Event),
    s.pending = .hostAt width write addr v :: rest →
    let off := (addr - s.params.linBase).toNat
    (64 ≤ off → step s = .refused (.outsideWindow addr)) ∧
    (off < 64 →
      ((width ≠ .w32 ∨ off % 4 ≠ 0) → step s = .fault (.busError (BitVec.ofNat 6 off))) ∧
      ((width = .w32 ∧ off % 4 = 0) → ∀ o, step s ≠ .fault (.busError o)) ∧
      (∀ txn : BitVec 7, txn.toNat = off + (if write then 64 else 0) →
        step s = step { s with script := .host width (.bus txn v) :: rest } ∧
        (∀ i, width = .w32 → s.rst = false → decode (.bus txn v) = .ok i →
          step s = exec i { s with script := rest }))))

/-- Every aligned 32-bit register access completes, in every state of the block (60_exceptions.md R270, 20_memory.md
R60, 70_reset_and_hazards.md R290). The moves to come as lists of the state are the model's form (assumption log
3, 26). -/
def Obligations.AlignedAccessCompletes : Prop :=
  ∀ (s : State) (word : HostWord) (rest : List Event),
    s.pending = .host .w32 word :: rest →
    (∀ (txn : BitVec 7) (v : Word), word = .bus txn v → txn.toNat % 4 = 0) →
    ∃ t, step s = .next t ∧ t.script = rest ∧ t.uart.rxFifo = s.uart.rxFifo ∧
      t.nowMs = s.nowMs ∧ t.rst = s.rst ∧ t.params = s.params

/-- Writing v to CMD is running the command that v decodes to (30_encoding.md R96, 30_encoding.md R103,
43_framer_commands.md R200). A command line as a word of its own is the model's form (assumption log 2). -/
def Obligations.CommandWordIsWriteOfCmd : Prop :=
  ∀ (s : State) (v : Word),
    exec (.wrCmd v) s = exec (decodeCmd v) s ∧
    ∀ width, hostMove width (.cmd v) s = hostMove width (.bus 0x44 v) s

/-- Each of the sixteen reads returns its register, assembled from its fields, and changes nothing else (R63). -/
def Obligations.ReadsReturnTheirRegister : Prop :=
  ∀ s : State,
    exec .rdCtrl s = .next { s with rdata := some (BitVec.ofNat 32
      (s.block.ctrl.verify.toNat + 2 * s.block.ctrl.drain.toNat + 4 * s.block.ctrl.irqEn.toNat)) } ∧
    exec .rdCmd s = .next { s with rdata := some 0 } ∧
    exec .rdStatus s = .next { s with rdata := some (BitVec.ofNat 32
      ((if s.block.f.state = .idle then 0 else 1) + 2 * s.block.status.done.toNat
        + 4 * s.block.status.success.toNat + 8 * s.block.status.timeout.toNat
        + 16 * s.block.status.cksErr.toNat + 32 * s.block.status.rbErr.toNat
        + 64 * s.block.status.lenErr.toNat + 128 * s.block.status.cmdErr.toNat
        + 256 * s.block.r.state.code.toNat + 2048 * s.block.status.cfgErr.toNat
        + 4096 * s.block.r.count.toNat + 65536 * s.block.f.state.code.toNat)) } ∧
    exec .rdFid s = .next { s with rdata := some (BitVec.ofNat 32 s.block.fid.toNat) } ∧
    exec .rdPid s = .next { s with rdata := some (BitVec.ofNat 32 (pid s.block.fid).toNat) } ∧
    exec .rdLen s = .next { s with rdata := some (BitVec.ofNat 32 s.block.len.toNat) } ∧
    exec .rdCks s = .next { s with rdata := some (BitVec.ofNat 32
      (frameCks s.block.fid (s.block.data.toList.take (min s.block.len.toNat 8))).toNat) } ∧
    exec .rdBaud s = .next { s with rdata := some s.block.baud } ∧
    exec .rdData0 s = .next { s with rdata := some (BitVec.ofNat 32 s.block.data.b0.toNat) } ∧
    exec .rdData1 s = .next { s with rdata := some (BitVec.ofNat 32 s.block.data.b1.toNat) } ∧
    exec .rdData2 s = .next { s with rdata := some (BitVec.ofNat 32 s.block.data.b2.toNat) } ∧
    exec .rdData3 s = .next { s with rdata := some (BitVec.ofNat 32 s.block.data.b3.toNat) } ∧
    exec .rdData4 s = .next { s with rdata := some (BitVec.ofNat 32 s.block.data.b4.toNat) } ∧
    exec .rdData5 s = .next { s with rdata := some (BitVec.ofNat 32 s.block.data.b5.toNat) } ∧
    exec .rdData6 s = .next { s with rdata := some (BitVec.ofNat 32 s.block.data.b6.toNat) } ∧
    exec .rdData7 s = .next { s with rdata := some (BitVec.ofNat 32 s.block.data.b7.toNat) }

/-- STATUS.RSTATE and STATUS.FSTATE encode the two states by the tables, and unused codes never appear (R100, R101). -/
def Obligations.StatusFieldsAndCodes : Prop :=
  (∀ b : Block,
    b.statusWord.extractLsb' 8 3 = b.r.state.code ∧
    b.statusWord.extractLsb' 16 4 = b.f.state.code ∧
    b.statusWord.extractLsb' 8 3 ≠ 6 ∧ b.statusWord.extractLsb' 8 3 ≠ 7 ∧
    b.statusWord.extractLsb' 16 4 ≠ 14 ∧ b.statusWord.extractLsb' 16 4 ≠ 15) ∧
  [RState.waitForBreak, .waitForSync, .waitForPid, .waitForData, .waitForChecksum,
    .frameComplete].map (fun st => st.code.toNat) = [0, 1, 2, 3, 4, 5] ∧
  [FState.idle, .brkFlush1, .brkSend, .brkFlush2, .txSync, .txPid, .txData, .txCks, .txFlush, .rxPoll,
    .drain, .wakeDelay, .failDelay, .rxFlushing].map (fun st => st.code.toNat) =
    [0, 1, 2, 3, 4, 5, 6, 7, 8, 9, 10, 11, 12, 13]

/-- While idle, a write of CTRL, FID, LEN, BAUD or DATA sets that register's bits of the value, and nothing else
(20_memory.md R64, 10_state.md R27, 10_state.md R31, 10_state.md R33, 10_state.md R35, 10_state.md R36,
10_state.md R38). -/
def Obligations.WritesWhileIdleSetTheirField : Prop :=
  ∀ (s : State) (v : Word), s.block.busy = false →
    exec (.wrCtrl v) s = .next { s with block := { s.block with
      ctrl := ⟨v.getLsbD 0, v.getLsbD 1, v.getLsbD 2⟩ } } ∧
    exec (.wrFid v) s = .next { s with block := { s.block with fid := BitVec.ofNat 6 v.toNat } } ∧
    exec (.wrLen v) s = .next { s with block := { s.block with len := BitVec.ofNat 4 v.toNat } } ∧
    exec (.wrBaud v) s = .next { s with block := { s.block with baud := v, baudOut := v } } ∧
    exec (.wrData0 v) s = .next { s with block := { s.block with
      data := { s.block.data with b0 := BitVec.ofNat 8 v.toNat } } } ∧
    exec (.wrData1 v) s = .next { s with block := { s.block with
      data := { s.block.data with b1 := BitVec.ofNat 8 v.toNat } } } ∧
    exec (.wrData2 v) s = .next { s with block := { s.block with
      data := { s.block.data with b2 := BitVec.ofNat 8 v.toNat } } } ∧
    exec (.wrData3 v) s = .next { s with block := { s.block with
      data := { s.block.data with b3 := BitVec.ofNat 8 v.toNat } } } ∧
    exec (.wrData4 v) s = .next { s with block := { s.block with
      data := { s.block.data with b4 := BitVec.ofNat 8 v.toNat } } } ∧
    exec (.wrData5 v) s = .next { s with block := { s.block with
      data := { s.block.data with b5 := BitVec.ofNat 8 v.toNat } } } ∧
    exec (.wrData6 v) s = .next { s with block := { s.block with
      data := { s.block.data with b6 := BitVec.ofNat 8 v.toNat } } } ∧
    exec (.wrData7 v) s = .next { s with block := { s.block with
      data := { s.block.data with b7 := BitVec.ofNat 8 v.toNat } } }

/-- While BUSY no register write changes VERIFY, DRAIN, FID, LEN, BAUD or DATA; IRQ_EN, the flags and CMD stay
writable (R66). -/
def Obligations.WritesWhileBusyAreFrozen : Prop :=
  ∀ (s : State) (v : Word), s.block.busy = true →
    (∀ (i : Instr) (t : State), exec i s = .next t →
      t.block.ctrl.verify = s.block.ctrl.verify ∧ t.block.ctrl.drain = s.block.ctrl.drain ∧
      t.block.fid = s.block.fid ∧ t.block.len = s.block.len ∧ t.block.baud = s.block.baud ∧
      t.block.data = s.block.data) ∧
    exec (.wrFid v) s = .next s ∧ exec (.wrLen v) s = .next s ∧ exec (.wrBaud v) s = .next s ∧
    exec (.wrData0 v) s = .next s ∧ exec (.wrData1 v) s = .next s ∧ exec (.wrData2 v) s = .next s ∧
    exec (.wrData3 v) s = .next s ∧ exec (.wrData4 v) s = .next s ∧ exec (.wrData5 v) s = .next s ∧
    exec (.wrData6 v) s = .next s ∧ exec (.wrData7 v) s = .next s ∧
    exec (.wrCtrl v) s = .next { s with block := { s.block with
      ctrl := { s.block.ctrl with irqEn := v.getLsbD 2 } } } ∧
    exec (.wrStatus v) s = .next { s with block := { s.block with
      status := s.block.status.clearFlags v } } ∧
    (v.toNat % 16 ≠ 0 → exec (.wrCmd v) s = .next { s with block := { s.block with
      status := { s.block.status with cmdErr := true } } })

/-- A write to PID or CKS changes nothing; a write to STATUS clears exactly the flags whose bit is 1 (20_memory.md
R65, 10_state.md R30, 10_state.md R32, 10_state.md R34). -/
def Obligations.ReadOnlyAndClearWrites : Prop :=
  ∀ (s : State) (v : Word),
    exec (.wrPid v) s = .next s ∧ exec (.wrCks v) s = .next s ∧
    exec (.wrStatus v) s = .next { s with block := { s.block with status :=
      { done := if v.getLsbD 1 then false else s.block.status.done
        success := s.block.status.success
        timeout := if v.getLsbD 3 then false else s.block.status.timeout
        cksErr := if v.getLsbD 4 then false else s.block.status.cksErr
        rbErr := if v.getLsbD 5 then false else s.block.status.rbErr
        lenErr := if v.getLsbD 6 then false else s.block.status.lenErr
        cmdErr := if v.getLsbD 7 then false else s.block.status.cmdErr
        cfgErr := if v.getLsbD 11 then false else s.block.status.cfgErr } } }

/-- A write to CMD is ignored, refused or accepted by its opcode and BUSY, in that order (R200). -/
def Obligations.CmdWriteDecidesByOpcode : Prop :=
  ∀ (s : State) (v : Word),
    let refused : State :=
      { s with block := { s.block with status := { s.block.status with cmdErr := true } } }
    (v.toNat % 16 = 0 → exec (.wrCmd v) s = .next s) ∧
    (v.toNat % 16 ≠ 0 → s.block.busy = true → exec (.wrCmd v) s = .next refused) ∧
    (5 ≤ v.toNat % 16 → s.block.busy = false → exec (.wrCmd v) s = .next refused) ∧
    (s.block.busy = false →
      (v.toNat % 16 = 1 → exec (.wrCmd v) s = .next { s with block := s.block.accept .write }) ∧
      (v.toNat % 16 = 2 → exec (.wrCmd v) s = .next { s with block := s.block.accept .read }) ∧
      (v.toNat % 16 = 3 → exec (.wrCmd v) s = .next { s with block := s.block.accept .brk }) ∧
      (v.toNat % 16 = 4 → exec (.wrCmd v) s = .next { s with block := s.block.accept .flush }))

/-- Each reserved opcode sets CMD_ERR and changes nothing else; the bits 31:4 of a command word have no effect
(R97). -/
def Obligations.ReservedOpcodesSetCmdErr : Prop :=
  ∀ (s : State) (ign : BitVec 28),
    let refused : State :=
      { s with block := { s.block with status := { s.block.status with cmdErr := true } } }
    exec (.nop ign) s = .next s ∧
    exec (.reserved5 ign) s = .next refused ∧ exec (.reserved6 ign) s = .next refused ∧
    exec (.reserved7 ign) s = .next refused ∧ exec (.reserved8 ign) s = .next refused ∧
    exec (.reserved9 ign) s = .next refused ∧ exec (.reservedA ign) s = .next refused ∧
    exec (.reservedB ign) s = .next refused ∧ exec (.reservedC ign) s = .next refused ∧
    exec (.reservedD ign) s = .next refused ∧ exec (.reservedE ign) s = .next refused ∧
    exec (.reservedF ign) s = .next refused ∧
    exec (.writeFrame ign) s = exec (.writeFrame 0) s ∧
    exec (.readFrame ign) s = exec (.readFrame 0) s ∧
    exec (.sendBreak ign) s = exec (.sendBreak 0) s ∧
    exec (.rxFlush ign) s = exec (.rxFlush 0) s

/-- An idle block with legal operands accepts WRITE_FRAME, READ_FRAME, SEND_BREAK and RX_FLUSH
(43_framer_commands.md R201, 43_framer_commands.md R204, 43_framer_commands.md R205, 43_framer_commands.md R206,
43_framer_commands.md R207). -/
def Obligations.AcceptedCommandsStart : Prop :=
  ∀ (s : State) (ign : BitVec 28), s.block.busy = false →
    let started (op : Op) (st : FState) : State :=
      { s with block := { s.block with
        status := ⟨false, false, false, false, false, false, s.block.status.cmdErr, false⟩
        f := { s.block.f with op := op, state := st } } }
    (s.block.len.toNat ≤ 8 → 2 ≤ s.block.baud.toNat →
      exec (.writeFrame ign) s = .next (started .write .brkFlush1) ∧
      exec (.readFrame ign) s = .next (started .read .brkFlush1)) ∧
    (2 ≤ s.block.baud.toNat → exec (.sendBreak ign) s = .next (started .brk .brkFlush1)) ∧
    exec (.rxFlush ign) s = .next (started .flush .rxFlushing) ∧
    (∀ v : Word, v.toNat % 16 = 1 → s.block.len.toNat ≤ 8 → 2 ≤ s.block.baud.toNat →
      exec (.wrCmd v) s = .next (started .write .brkFlush1))

/-- A command with LEN above 8 or BAUD below 2 fails in the step of its CMD write and never makes BUSY 1
(43_framer_commands.md R201, 43_framer_commands.md R202, 70_reset_and_hazards.md R304, 90_conflicts.md C7). -/
def Obligations.IllegalOperandsFailAtAcceptance : Prop :=
  ∀ (s : State) (ign : BitVec 28), s.block.busy = false →
    let failed (op : Op) (lenErr cfgErr : Bool) : State :=
      { s with block := { s.block with
        status := ⟨true, false, false, false, false, lenErr, s.block.status.cmdErr, cfgErr⟩
        f := { s.block.f with op := op, state := .idle } } }
    ((8 < s.block.len.toNat ∨ s.block.baud.toNat < 2) →
      exec (.writeFrame ign) s = .next
        (failed .write (decide (8 < s.block.len.toNat)) (decide (s.block.baud.toNat < 2))) ∧
      exec (.readFrame ign) s = .next
        (failed .read (decide (8 < s.block.len.toNat)) (decide (s.block.baud.toNat < 2)))) ∧
    (s.block.baud.toNat < 2 → exec (.sendBreak ign) s = .next (failed .brk false true))

/-- The PID byte holds the identifier in bits 5:0 and the two parity bits in bits 6 and 7 (R92). -/
def Obligations.PidLayout : Prop :=
  ∀ f : Word,
    (∀ k < 6, (pid f).getLsbD k = f.getLsbD k) ∧
    (pid f).getLsbD 6 = (f.getLsbD 0 ^^ f.getLsbD 1 ^^ f.getLsbD 2 ^^ f.getLsbD 4) ∧
    (pid f).getLsbD 7 = !(f.getLsbD 1 ^^ f.getLsbD 3 ^^ f.getLsbD 4 ^^ f.getLsbD 5)

/-- pid masks its operand; the 64 results are distinct, none is 0x00, exactly one is the Sync byte
(40_checksum_pid.md R120, 30_encoding.md R92). -/
def Obligations.PidIsInjectiveAndNeverZero : Prop :=
  (∀ f : Word, pid f = pid (f &&& 0x3F)) ∧
  (∀ f g : FrameId, pid f = pid g → f = g) ∧
  (∀ f : FrameId, pid f ≠ 0x00 ∧ (pid f = 0x55 ↔ f = 0x15)) ∧
  pid (0x3C : FrameId) = 0x3C ∧ pid (0x3D : FrameId) = 0x7D

/-- The checksum depends only on the total mod 255 and on whether the total is 0 (40_checksum_pid.md R121,
40_checksum_pid.md R125). -/
def Obligations.ChecksumIsModulo255 : Prop :=
  ∀ (seed : Byte) (d : List Byte),
    let total := seed.toNat + (d.map BitVec.toNat).sum
    total < 2 ^ 16 →
    (cks seed d).toNat = 255 - (if total = 0 then 0 else (total - 1) % 255 + 1) ∧
    (0 < total → total + 255 < 2 ^ 16 → cks seed (d ++ [0xFF]) = cks seed d)

/-- frame_cks is classic from identifier 0x3C on and enhanced, seeded with the PID, below (R122, R123, R124). -/
def Obligations.FrameChecksumDispatch : Prop :=
  (∀ (fid : Word) (d : List Byte),
    (0x3C ≤ fid.toNat % 64 → frameCks fid d = cks 0 d) ∧
    (fid.toNat % 64 < 0x3C → frameCks fid d = cks (pid (BitVec.ofNat 6 fid.toNat)) d) ∧
    classicCks d = cks 0 d ∧ enhancedCks fid d = cks (pid fid) d) ∧
  frameCks (0x3D : FrameId) [0x0A, 0x06, 0xF2, 0x06, 0x2E, 0x80, 0x10, 0x56] = 0xE1

/-- The break: flush and drop to half the rate, push one 0x00, flush and restore the rate (R140, R141, R142). -/
def Obligations.BreakGeneratorSteps : Prop :=
  ∀ s : State,
    (s.block.f.state = .brkFlush1 →
      (s.txEmpty = false → seqStep s = .next s) ∧
      (s.txEmpty = true → seqStep s = .next { s with block := { s.block with
        baudOut := s.block.baud >>> 1, f := { s.block.f with state := .brkSend } } })) ∧
    (s.block.f.state = .brkSend →
      (s.uart.txReady = false → seqStep s = .next s) ∧
      (s.uart.txReady = true → seqStep s = .next { s with
        block := { s.block with f := { s.block.f with state := .brkFlush2 } }
        uart := (s.txPush 0x00).uart })) ∧
    (s.block.f.state = .brkFlush2 →
      (s.txEmpty = false → seqStep s = .next s) ∧
      (s.txEmpty = true → s.block.f.op = .brk → seqStep s = .next { s with block := { s.block with
        baudOut := s.block.baud, f := { s.block.f with t0 := s.nowMs, state := .wakeDelay } } }) ∧
      (s.txEmpty = true → s.block.f.op ≠ .brk → seqStep s = .next { s with block := { s.block with
        baudOut := s.block.baud, f := { s.block.f with state := .txSync } } }))

/-- TX_SYNC pushes 0x55; TX_PID pushes pid(FID) and starts the reader, the data or the flush (R208, R209). -/
def Obligations.HeaderSteps : Prop :=
  ∀ s : State,
    let push (b : Byte) : Uart := (s.txPush b).uart
    (s.block.f.state = .txSync →
      (s.uart.txReady = false → seqStep s = .next s) ∧
      (s.uart.txReady = true → seqStep s = .next { s with
        block := { s.block with f := { s.block.f with state := .txPid } }, uart := push 0x55 })) ∧
    (s.block.f.state = .txPid →
      (s.uart.txReady = false → seqStep s = .next s) ∧
      (s.uart.txReady = true →
        (s.block.f.op = .read → seqStep s = .next { s with
          block := { s.block with
            f := { s.block.f with t0 := s.nowMs, state := .rxPoll }
            r := { s.block.r with
              state := .waitForBreak, count := 0, fid := s.block.fid, pid := pid s.block.fid,
              len := s.block.len } }
          uart := push (pid s.block.fid) }) ∧
        (s.block.f.op ≠ .read → s.block.len = 0 → seqStep s = .next { s with
          block := { s.block with f := { s.block.f with state := .txFlush } }
          uart := push (pid s.block.fid) }) ∧
        (s.block.f.op ≠ .read → s.block.len ≠ 0 → seqStep s = .next { s with
          block := { s.block with f := { s.block.f with idx := 0, state := .txData } }
          uart := push (pid s.block.fid) })))

/-- TX_DATA pushes DATA[f.idx] and counts on; after the last byte TX_CKS pushes the frame's checksum (R213, R214). -/
def Obligations.DataAndChecksumSteps : Prop :=
  ∀ s : State, s.block.len.toNat ≤ 8 →
    let push (b : Byte) : Uart := (s.txPush b).uart
    (s.block.f.state = .txData → s.block.f.idx.toNat < s.block.len.toNat →
      (s.uart.txReady = false → seqStep s = .next s) ∧
      (s.uart.txReady = true → ∃ d, s.block.data.toList[s.block.f.idx.toNat]? = some d ∧
        seqStep s = .next { s with
          block := { s.block with f := { s.block.f with
            idx := s.block.f.idx + 1
            state := if s.block.f.idx.toNat + 1 = s.block.len.toNat then .txCks else .txData } }
          uart := push d })) ∧
    (s.block.f.state = .txCks → s.block.len ≠ 0 →
      let c := frameCks s.block.fid (s.block.data.toList.take s.block.len.toNat)
      (s.uart.txReady = false → seqStep s = .next s) ∧
      (s.uart.txReady = true → seqStep s = .next { s with
        block := { s.block with f := { s.block.f with state := .txFlush } }, uart := push c }) ∧
      s.block.cksWord = c.setWidth 32)

/-- After the flush a write verifies, else drains, else finishes with success; VERIFY wins over DRAIN (R215). -/
def Obligations.FlushThenVerifyDrainOrFinish : Prop :=
  ∀ s : State, s.block.f.state = .txFlush → s.block.len.toNat ≤ 8 →
    (s.txEmpty = false → seqStep s = .next s) ∧
    (s.txEmpty = true →
      (s.block.ctrl.verify = true → seqStep s = .next { s with block := { s.block with
        f := { s.block.f with t0 := s.nowMs, state := .rxPoll }
        r := { s.block.r with
          state := .waitForBreak, count := 0, fid := s.block.fid, pid := pid s.block.fid,
          len := s.block.len } } }) ∧
      (s.block.ctrl.verify = false → s.block.ctrl.drain = true →
        seqStep s = .next { s with block := { s.block with f := { s.block.f with
          k := BitVec.ofNat 4 (if s.block.len.toNat = 0 then 3 else s.block.len.toNat + 4)
          t0 := s.nowMs, state := .drain } } }) ∧
      (s.block.ctrl.verify = false → s.block.ctrl.drain = false →
        seqStep s = .next { s with block := { s.block with
          status := { s.block.status with success := true, done := true }
          f := { s.block.f with state := .idle } } }))

/-- A poll tests completion, then the 50 ms deadline, then takes one byte, else holds (R210). -/
def Obligations.RxPollTestsInOrder : Prop :=
  ∀ s : State, s.block.f.state = .rxPoll →
    (s.block.r.complete = true → seqStep s = .next { s with block := s.block.complete }) ∧
    (s.block.r.complete = false → 50 ≤ (s.nowMs - s.block.f.t0).toNat →
      seqStep s = .next { s with block := s.block.timeOut s.nowMs }) ∧
    (s.block.r.complete = false → (s.nowMs - s.block.f.t0).toNat < 50 →
      (s.uart.rxFifo = [] → seqStep s = .next s) ∧
      (∀ byte rest st, s.uart.rxFifo = byte :: rest → s.block.r.processByte byte = some st →
        seqStep s = .next { s with
          block := { s.block with
            r := st.reader
            status := { s.block.status with cksErr := s.block.status.cksErr || st.mismatch } }
          uart := { s.uart with rxFifo := rest } }))

/-- Completion of a read copies the data and succeeds; a verify compares; a timeout fails (R211, R212). -/
def Obligations.PollOutcomes : Prop :=
  ∀ (b : Block) (now : Word), b.r.len.toNat ≤ 8 →
    (b.f.op = .read → ∃ data : Bytes8,
      data.toList = b.r.buf.toList.take b.r.len.toNat ++ b.data.toList.drop b.r.len.toNat ∧
      b.complete = { b with
        data := data
        status := { b.status with success := true, done := true }
        f := { b.f with state := .idle } } ∧
      b.timeOut now = { b with
        status := { b.status with timeout := true }
        f := { b.f with t0 := now, state := .failDelay } }) ∧
    (b.f.op ≠ .read →
      let same : Prop := ∀ i < b.r.len.toNat, b.r.buf.toList[i]? = b.data.toList[i]?
      (same → b.complete = { b with
        status := { b.status with success := true, done := true }
        f := { b.f with state := .idle } }) ∧
      (¬ same → b.complete = { b with
        status := { b.status with rbErr := true, success := false, done := true }
        f := { b.f with state := .idle } }) ∧
      b.timeOut now = { b with
        status := { b.status with timeout := true, rbErr := true, success := false, done := true }
        f := { b.f with state := .idle } })

/-- DRAIN, RX_FLUSHING, WAKE_DELAY and FAIL_DELAY hold, discard a byte, or finish as their rules say (R147, R216,
R217, R219). -/
def Obligations.DrainFlushAndDelaySteps : Prop :=
  ∀ s : State,
    let finished (ok : Bool) : State :=
      { s with block := { s.block with
        status := { s.block.status with success := ok, done := true }
        f := { s.block.f with state := .idle } } }
    let elapsedMs := (s.nowMs - s.block.f.t0).toNat
    (s.block.f.state = .drain →
      ((s.block.f.k = 0 ∨ 50 ≤ elapsedMs) → seqStep s = .next (finished true)) ∧
      (s.block.f.k ≠ 0 → elapsedMs < 50 →
        (s.uart.rxFifo = [] → seqStep s = .next s) ∧
        (∀ byte rest, s.uart.rxFifo = byte :: rest → seqStep s = .next { s with
          block := { s.block with f := { s.block.f with k := s.block.f.k - 1 } }
          uart := { s.uart with rxFifo := rest } }))) ∧
    (s.block.f.state = .rxFlushing →
      (s.uart.rxFifo = [] → seqStep s = .next (finished true)) ∧
      (∀ byte rest, s.uart.rxFifo = byte :: rest →
        seqStep s = .next { s with uart := { s.uart with rxFifo := rest } })) ∧
    (s.block.f.state = .wakeDelay →
      (s.params.tWakeMs.toNat ≤ elapsedMs → seqStep s = .next (finished true)) ∧
      (elapsedMs < s.params.tWakeMs.toNat → seqStep s = .next s)) ∧
    (s.block.f.state = .failDelay →
      (s.params.tFailDelayMs.toNat ≤ elapsedMs → seqStep s = .next (finished false)) ∧
      (elapsedMs < s.params.tFailDelayMs.toNat → seqStep s = .next s))

/-- Every row of the reader's table outside the data, and the refusal of a byte by a complete reader (R161, R162,
R163, R164, R165, R166, R169, R170, R172, R174). -/
def Obligations.ReaderFollowsTheTable : Prop :=
  (∀ (r : Reader) (b : Byte),
    let reset : Reader := { r with state := .waitForBreak, count := 0 }
    (r.state = .waitForBreak →
      (b = 0x00 → r.processByte b = some ⟨{ r with state := .waitForSync }, false⟩) ∧
      (b ≠ 0x00 → r.processByte b = some ⟨r, false⟩)) ∧
    (r.state = .waitForSync →
      (b = 0x55 → r.processByte b = some ⟨{ r with state := .waitForPid }, false⟩) ∧
      (b ≠ 0x55 → r.processByte b = some ⟨reset, false⟩)) ∧
    (r.state = .waitForPid →
      (b = r.pid → r.processByte b = some ⟨{ r with state := .waitForData }, false⟩) ∧
      (b ≠ r.pid → r.processByte b = some ⟨reset, false⟩)) ∧
    (r.state = .waitForChecksum →
      let c := frameCks r.fid (r.buf.toList.take r.len.toNat)
      (b = c → r.processByte b = some ⟨{ r with state := .frameComplete }, false⟩) ∧
      (b ≠ c → r.processByte b = some ⟨reset, true⟩)) ∧
    (r.complete = true → r.processByte b = none)) ∧
  (∀ s t : State,
    (s.block.f.state = .idle ∨ (s.block.f.state = .rxPoll ∧ s.block.r.complete = true)) →
    seqStep s = .next t → t.uart = s.uart)

/-- In WaitForData every byte is appended, and the last one moves the reader to WaitForChecksum (R167, R168). -/
def Obligations.ReaderAppendsData : Prop :=
  ∀ (r : Reader) (b : Byte), r.state = .waitForData → r.len.toNat ≤ 8 →
    r.count.toNat < r.len.toNat →
    ∃ buf : Bytes8, buf.toList = r.buf.toList.set r.count.toNat b ∧
      r.processByte b = some ⟨{ r with
        buf := buf
        count := r.count + 1
        state := if r.count.toNat + 1 = r.len.toNat then .waitForChecksum else .waitForData }, false⟩

/-- The reader is complete in FrameComplete, and in WaitForData when no data is expected, and only then (R173). -/
def Obligations.CompletionRule : Prop :=
  ∀ r : Reader, r.complete = true ↔
    (r.state = .frameComplete ∨ (r.len = 0 ∧ r.state = .waitForData))

/-- Noise without a 0x00 before a well-formed frame is harmless: the frame completes the reader with its data
(42_frame_reader.md R160, 42_frame_reader.md R176). -/
def Obligations.NoiseThenFrameCompletes : Prop :=
  ∀ (r : Reader) (fid : FrameId) (data noise : List Byte),
    data.length ≤ 8 → (∀ x ∈ noise, x ≠ 0x00) →
    ∃ r' : Reader,
      (r.start fid (BitVec.ofNat 4 data.length)).feed
        (noise ++ [0x00, 0x55, pid fid] ++ data ++
          (if data = [] then [] else [frameCks fid data])) = some ⟨r', false⟩ ∧
      r'.complete = true ∧ r'.count.toNat = data.length ∧
      r'.buf.toList.take data.length = data

/-- After k stale zeros the echo of the header is read when k is even and missed when k is odd (42_frame_reader.md
R161, 42_frame_reader.md R164, 70_reset_and_hazards.md R297, 90_conflicts.md C10). -/
def Obligations.StaleZerosParity : Prop :=
  ∀ (r : Reader) (fid : FrameId) (len : BitVec 4) (k : Nat),
    ∃ r' : Reader,
      (r.start fid len).feed (List.replicate k 0x00 ++ [0x00, 0x55, pid fid]) = some ⟨r', false⟩ ∧
      r'.count = 0 ∧ r'.fid = fid ∧ r'.len = len ∧
      (k % 2 = 0 → r'.state = .waitForData) ∧ (k % 2 = 1 → r'.state = .waitForBreak)

/-- irq is DONE and IRQ_EN: it rises at finish or when enabled, and falls on clear, disable, acceptance or rst
(R262). -/
def Obligations.IrqFollowsDoneAndEnable : Prop :=
  ∀ (b : Block) (v : Word) (ok : Bool) (op : Op),
    (b.irq = true ↔ (b.status.done = true ∧ b.ctrl.irqEn = true)) ∧
    (b.finish ok).irq = b.ctrl.irqEn ∧
    (b.writeCtrl v).irq = (b.status.done && v.getLsbD 2) ∧
    (v.getLsbD 1 = true → (b.acknowledge v).irq = false) ∧
    (b.Accepts op → (b.accept op).irq = false) ∧
    b.reset.irq = false

/-- finish(s) sets SUCCESS to s and DONE to 1, returns the sequencer to IDLE, and changes nothing else; IDLE takes
no step (R202). -/
def Obligations.FinishSetsOutcomeOnly : Prop :=
  (∀ (b : Block) (ok : Bool), b.finish ok = { b with
    status := { b.status with success := ok, done := true }
    f := { b.f with state := .idle } }) ∧
  (∀ s : State, s.block.f.state = .idle → seqStep s = .next s)

/-- A transaction in flight ends only by finish or by rst (R220). -/
def Obligations.TransactionEndsByFinishOrReset : Prop :=
  (∀ s t : State, s.Inv → s.block.busy = true → step s = .next t → t.block.busy = false →
    (t.rst = true ∧ t.block = s.block.reset) ∨
    (t.rst = false ∧ t.block.f.state = .idle ∧ t.block.status.done = true)) ∧
  (∀ (s t : State) (i : Instr), s.block.busy = true → exec i s = .next t → t.block.f = s.block.f) ∧
  (∀ s t : State, s.block.busy = true → step s = .next t → t.block.busy = true →
    t.block.f.op = s.block.f.op ∧
    (t.block.f.state = .brkFlush1 → s.block.f.state = .brkFlush1) ∧
    (t.block.f.state = .rxFlushing → s.block.f.state = .rxFlushing))

/-- A write of CMD is the only way to leave IDLE (10_state.md R25, 43_framer_commands.md R202). -/
def Obligations.OnlyCmdWriteLeavesIdle : Prop :=
  ∀ s t : State, s.block.busy = false → step s = .next t → t.block.busy = true →
    s.rst = false ∧ s.nextMove.WritesCmd s.params

/-- CMD_ERR, once set, stays until a STATUS write of 1 in bit 7 or a reset clears it (10_state.md R30,
43_framer_commands.md R201, 70_reset_and_hazards.md R306). -/
def Obligations.CmdErrStaysUntilCleared : Prop :=
  ∀ s t : State, s.block.status.cmdErr = true → step s = .next t → t.block.status.cmdErr = false →
    t.rst = true ∨ s.nextMove.ClearsFlag s.params 7

/-- DATA changes only by an idle host write, by the completion of a read, or by reset (10_state.md R36,
43_framer_commands.md R211). -/
def Obligations.DataChangesOnlyByWriteReadOrReset : Prop :=
  ∀ s t : State, step s = .next t → t.block.data ≠ s.block.data →
    t.rst = true ∨
    (s.block.busy = false ∧ 
      ((∃ txn v, s.nextMove = .host .w32 (.bus txn v) ∧ 0x60 ≤ txn.toNat) ∨
        (∃ addr v, s.nextMove = .hostAt .w32 true addr v ∧ 0x20 ≤ (addr - s.params.linBase).toNat))) ∨
    (s.block.f.state = .rxPoll ∧ s.block.f.op = .read ∧ s.block.r.complete = true ∧
      t.block.status.success = true ∧ t.block.status.done = true)

/-- The sequencer changes baud_out only when the transmitter is empty, and pushes only when tx_ready is 1
(20_memory.md R73, 10_state.md R38). What the transmitter holds stands for tx_empty (assumption log 11). -/
def Obligations.SequencerChangesRateOnlyWhenEmpty : Prop :=
  ∀ s t : State, seqStep s = .next t →
    (t.block.baudOut ≠ s.block.baudOut → s.txEmpty = true) ∧
    (t.uart.txQueue ≠ s.uart.txQueue → s.uart.txReady = true ∧ ∃ b,
      t.uart.txQueue = s.uart.txQueue ++ [⟨b, s.block.baudOut, false⟩])

/-- TxPush puts the byte behind the pushed ones, at the rate current now, and tx_empty is then 0 (20_memory.md R73,
00_scope.md R7). How the transmitter holds pushed bytes is the model's (assumption log 11). -/
def Obligations.TxPushQueuesAtTheCurrentRate : Prop :=
  ∀ (s : State) (b : Byte),
    s.txPush b = { s with uart := { s.uart with
      txQueue := s.uart.txQueue ++ [⟨b, s.block.baudOut, false⟩] } } ∧
    (s.txPush b).txEmpty = false

/-- A step pushes at most one byte, after all pushed before, and a sequencer step pops at most the oldest byte
(20_memory.md R71, 20_memory.md R72, 20_memory.md R73, 20_memory.md R74). The pushed bytes as a record, the list
of bytes on the bus that gains one at its end or loses its first, and the moves to come as lists of the state
are the model's form, not the rules' words (assumption log 3, 10, 12, 26). -/
def Obligations.StepMovesOneByteInOrder : Prop :=
  (∀ s t : State, step s = .next t →
    (t.pushedBytes = s.pushedBytes ∨ ∃ b, t.pushedBytes = s.pushedBytes ++ [b]) ∧
    t.params = s.params ∧ t.script = s.pending.tail ∧ t.forever = s.forever ∧
    (t.uart.onBus = s.uart.onBus ∨ (∃ b, t.uart.onBus = s.uart.onBus ++ [b]) ∨
      ∃ b, s.uart.onBus = b :: t.uart.onBus)) ∧
  (∀ s t : State, seqStep s = .next t →
    (t.uart.rxFifo = s.uart.rxFifo ∨
      (t.uart.txQueue = s.uart.txQueue ∧ ∃ b, s.uart.rxFifo = b :: t.uart.rxFifo)) ∧
    t.nowMs = s.nowMs ∧ t.rst = s.rst ∧ t.rdata = s.rdata ∧ t.params = s.params ∧
    t.script = s.script ∧ t.forever = s.forever ∧ t.uart.txReady = s.uart.txReady ∧
    t.uart.txActive = s.uart.txActive ∧ t.uart.onBus = s.uart.onBus ∧ t.uart.line = s.uart.line)

/-- RX_FLUSH discards one byte per step and ends at the first step that finds the FIFO empty (43_framer_commands.md
R219, 43_framer_commands.md R207). The moves named are one interleaving among all (assumption log 4). -/
def Obligations.FlushEndsWhenTheFifoIsEmpty : Prop :=
  ∀ s : State, s.rst = false → s.block.f.state = .rxFlushing →
    let n := s.uart.rxFifo.length
    let s0 : State := { s with script := List.replicate (n + 1) .sequencer }
    (∃ t, runSteps (n + 1) s0 = .next t ∧ t.block.busy = false ∧
      t.block.status.done = true ∧ t.block.status.success = true ∧ t.uart.rxFifo = [] ∧
      t.block.r = s.block.r ∧ t.block.data = s.block.data ∧ t.uart.txQueue = s.uart.txQueue) ∧
    (∀ k ≤ n, ∃ t, runSteps k s0 = .next t ∧ t.block.busy = true)

/-- The machine right after reset meets the invariant (70_reset_and_hazards.md R290, 70_reset_and_hazards.md R293,
10_state.md R37, 10_state.md R39). The fields with no reset value hold the model's choice there (assumption log
5), which the invariant's clauses on the reader rest on. -/
def Obligations.ResetMeetsInvariant : Prop := State.reset.Inv

/-- Every step keeps the invariant (10_state.md R37, 10_state.md R38, 10_state.md R39, 43_framer_commands.md R201,
43_framer_commands.md R202, 60_exceptions.md R265, 60_exceptions.md R267). -/
def Obligations.StepKeepsInvariant : Prop :=
  ∀ s t : State, s.Inv → step s = .next t → t.Inv

/-- From a state that meets the invariant a step stops only by an undefined or foreign host access
(42_frame_reader.md R174, 43_framer_commands.md R210, 43_framer_commands.md R213, 60_exceptions.md R260). -/
def Obligations.InvariantExcludesModelStops : Prop :=
  ∀ s : State, s.Inv →
    (∃ t, step s = .next t) ∨
    (∃ off width word rest, step s = .fault (.busError off) ∧
      s.pending = .host width word :: rest ∧ accessWellFormed width word = false) ∨
    (∃ off width write addr v rest, step s = .fault (.busError off) ∧
      s.pending = .hostAt width write addr v :: rest ∧
      (width ≠ .w32 ∨ (addr - s.params.linBase).toNat % 4 ≠ 0)) ∨
    (∃ width write addr v rest, step s = .refused (.outsideWindow addr) ∧
      s.pending = .hostAt width write addr v :: rest ∧ 64 ≤ (addr - s.params.linBase).toNat)

/-- A field is never read before it is written: two states that differ only in unread fields step alike (10_state.md
R37, 10_state.md R39, 70_reset_and_hazards.md R290). For every two states that meet the invariant and agree
after the blanking, a step of both gives the same fault or refusal, or next states that agree after the
blanking; so what a read returns, what is pushed and every flag never depend on such a field, nor on the model's
choice of its value at reset (assumption log 5, 6). -/
def Obligations.UnwrittenFieldsAreUnobservable : Prop :=
  ∀ s s' : State, s.Inv → s'.Inv → s.visible = s'.visible →
    visibleOutcome (step s) = visibleOutcome (step s')

/-- After a reset step the registers, baud_out and irq read as the reset table says (70_reset_and_hazards.md R292,
70_reset_and_hazards.md R290, 10_state.md R38). -/
def Obligations.ResetStepValues : Prop :=
  ∀ s b, (b = (State.resetStep s).block ∨ b = State.reset.block) →
    b.ctrlWord = 0x00000001 ∧ b.cmdWord = 0 ∧ b.statusWord = 0 ∧ b.fidWord = 0 ∧
    b.pidWord = 0x00000080 ∧ b.lenWord = 0x00000008 ∧ b.cksWord = 0x0000007F ∧
    b.baudWord = 0x00004B00 ∧ b.data.toList = List.replicate 8 0x00 ∧
    b.baudOut = 19200 ∧ b.irq = false

/-- While rst stays 1 every step resets the block, and the clock, the UART and the other nodes go on as their own
moves say (70_reset_and_hazards.md R290, 70_reset_and_hazards.md R291, 70_reset_and_hazards.md R292,
60_exceptions.md R266). That a move of the environment made while rst is 1, the one that raises rst among them,
is also a reset step is the model's choice, and so are the marks and the platform address as a move, none denied
(assumption log 14, 15, 16, 21, 27). -/
def Obligations.ResetOverridesEveryMove : Prop :=
  (∀ s t : State, s.rst = true → step s = .next t → t.rst = true →
    t.block = s.block.reset ∧ t.pushedBytes = s.pushedBytes) ∧
  (∀ (s : State) (i : Instr) (word : HostWord) (rest : List Event), s.rst = true →
    s.pending = .host .w32 word :: rest → decode word = .ok i →
    ∃ t, step s = .next t ∧ t.block = s.block.reset ∧ t.nowMs = s.nowMs ∧
      t.uart.rxFifo = s.uart.rxFifo ∧ t.uart.onBus = s.uart.onBus ∧ t.uart.line = s.uart.line ∧
      t.uart.txReady = s.uart.txReady ∧
      (i = .rdCtrl → t.rdata = some 1) ∧ (i = .rdCmd → t.rdata = some 0) ∧
      (i = .rdStatus → t.rdata = some 0) ∧ (i = .rdFid → t.rdata = some 0) ∧
      (i = .rdPid → t.rdata = some 0x80) ∧ (i = .rdLen → t.rdata = some 8) ∧
      (i = .rdCks → t.rdata = some 0x7F) ∧ (i = .rdBaud → t.rdata = some 0x4B00) ∧
      (i = .rdData0 → t.rdata = some 0) ∧ (i = .rdData1 → t.rdata = some 0) ∧
      (i = .rdData2 → t.rdata = some 0) ∧ (i = .rdData3 → t.rdata = some 0) ∧
      (i = .rdData4 → t.rdata = some 0) ∧ (i = .rdData5 → t.rdata = some 0) ∧
      (i = .rdData6 → t.rdata = some 0) ∧ (i = .rdData7 → t.rdata = some 0)) ∧
  (∀ (s : State) (write : Bool) (addr v : Word) (rest : List Event), s.rst = true →
    s.pending = .hostAt .w32 write addr v :: rest →
    let off := (addr - s.params.linBase).toNat
    off < 64 → off % 4 = 0 →
    ∃ t, step s = .next t ∧ t.block = s.block.reset ∧ t.nowMs = s.nowMs ∧
      t.uart.rxFifo = s.uart.rxFifo ∧ t.uart.onBus = s.uart.onBus ∧ t.uart.line = s.uart.line ∧
      t.uart.txReady = s.uart.txReady ∧
      t.rdata = if write then s.rdata else some (resetRegister (off / 4))) ∧
  (∀ (s : State) (rest : List Event), s.rst = true →
    let after (u : Uart) (now : Word) : StepOutcome := .next { s with
      script := rest
      nowMs := now
      block := s.block.reset
      uart :=
        if s.block.baudOut = 19200 then u
        else { u with
          txQueue := u.txQueue.map fun c => { c with disturbed := true }
          txActive := u.txActive.map fun c => { c with disturbed := true } } }
    ((s.pending = .sequencer :: rest ∨ s.pending = .rst true :: rest) →
      step s = after s.uart s.nowMs) ∧
    (∀ ms, s.pending = .clock ms :: rest →
      step s = after s.uart (BitVec.ofNat 32 (s.nowMs.toNat + ms.toNat))) ∧
    (∀ e, s.pending = e :: rest → e.OfUart →
      ∃ u, s.uart.MovesTo s.params e u ∧ step s = after u s.nowMs))

/-- Raising rst abandons the transaction without DONE; the UART keeps its bytes (70_reset_and_hazards.md R290,
70_reset_and_hazards.md R291). That the move raising rst resets the block in its own step, and the marks, are
the model's choice, not R290's words (assumption log 14, 16). -/
def Obligations.RaisingResetAbandonsTransaction : Prop :=
  ∀ (s : State) (rest : List Event), s.pending = .rst true :: rest →
    ∃ t, step s = .next t ∧ t.rst = true ∧ t.block = s.block.reset ∧ t.block.busy = false ∧
      t.block.status.done = false ∧ t.block.status.success = false ∧
      t.uart.rxFifo = s.uart.rxFifo ∧ t.uart.onBus = s.uart.onBus ∧ t.nowMs = s.nowMs ∧
      t.pushedBytes = s.pushedBytes ∧
      (s.block.baudOut = 19200 →
        t.uart.txQueue = s.uart.txQueue ∧ t.uart.txActive = s.uart.txActive) ∧
      (s.block.baudOut ≠ 19200 →
        (∀ c ∈ t.uart.txQueue, c.disturbed = true) ∧ (∀ c ∈ t.uart.txActive, c.disturbed = true))

/-- Bytes reach the FIFO in the order they started on the bus, echoes among them; at a full FIFO a subsequence that
fits is kept (10_state.md R40, 20_memory.md R72, 93_implementation_defined.md section 2). The draws, and a start
as a move of its own, are the model's form (assumption log 12, 13). -/
def Obligations.ReceiveFifoKeepsArrivalOrder : Prop :=
  (∀ (s : State) (how : ArrivalDraw) (draw : OverflowDraw) (rest : List Event), s.rst = false →
    s.pending = .rxArrive how draw :: rest →
    (s.uart.onBus = [] → step s = .next { s with script := rest }) ∧
    (∀ b bus, s.uart.onBus = b :: bus →
      (how = .lost → step s = .next { s with script := rest, uart := { s.uart with onBus := bus } }) ∧
      (∀ c, ((how = .intact ∧ c = b) ∨ how = .damaged c) →
        ∃ fifo,
          step s = .next { s with
            script := rest, uart := { s.uart with onBus := bus, rxFifo := fifo } } ∧
          (s.uart.rxFifo.length < s.params.rxDepth → fifo = s.uart.rxFifo ++ [c]) ∧
          (s.params.rxDepth ≤ s.uart.rxFifo.length →
            fifo.length ≤ s.params.rxDepth ∧ fifo.Sublist (s.uart.rxFifo ++ [c]))))) ∧
  (∀ (s : State) (how : ArrivalDraw) (b c : Byte) (bus fifo : List Byte) (rest : List Event),
    s.rst = false → s.uart.onBus = b :: bus → ((how = .intact ∧ c = b) ∨ how = .damaged c) →
    s.params.rxDepth ≤ s.uart.rxFifo.length →
    fifo.length ≤ s.params.rxDepth → fifo.Sublist (s.uart.rxFifo ++ [c]) →
    ∃ draw, step { s with script := .rxArrive how draw :: rest } =
      .next { s with script := rest, uart := { s.uart with onBus := bus, rxFifo := fifo } }) ∧
  (∀ (s : State) (c : TxChar) (queue : List TxChar) (later : List Byte), s.rst = false →
    s.params.echo = true → s.uart.txActive = none → s.uart.txQueue = c :: queue →
    s.uart.rxFifo.length + s.uart.onBus.length + 1 + later.length ≤ s.params.rxDepth →
    let script := .txStart :: busStarts later ++
      List.replicate (s.uart.onBus.length + 1 + later.length) arriveIntact
    ∃ t, runSteps script.length { s with script := script } = .next t ∧ t.uart.onBus = [] ∧
      t.uart.rxFifo = s.uart.rxFifo ++ s.uart.onBus ++ [c.byte] ++ later)

/-- A deadline works across the wrap of now_ms (00_scope.md R7, 10_state.md R23, 60_exceptions.md R272). -/
def Obligations.ElapsedTimeIsModular : Prop :=
  ∀ (s : State) (d : Nat) (rest : List Event), s.rst = false → s.pending = .sequencer :: rest →
    s.block.f.state = .wakeDelay → d < 2 ^ 32 →
    s.nowMs = BitVec.ofNat 32 (s.block.f.t0.toNat + d) →
    ∃ t, step s = .next t ∧
      (t.block.busy = false ↔ s.params.tWakeMs.toNat ≤ d) ∧
      (t.block.busy = false → t.block.status.done = true ∧ t.block.status.success = true)

/-- WRITE_FRAME with neither VERIFY nor DRAIN, on a UART that keeps up, puts exactly the frame on the wire and
succeeds (30_encoding.md R90, 30_encoding.md R91, 43_framer_commands.md R204, 43_framer_commands.md R222,
41_break_generator.md R140). The moves named are one interleaving among all (assumption log 4). -/
def Obligations.WriteFrameSendsTheFrame : Prop :=
  ∀ (s : State), s.rst = false → s.block.Accepts .write → s.uart.txReady = true →
    s.uart.txQueue = [] → s.uart.txActive = none → s.block.ctrl.verify = false → s.block.ctrl.drain = false →
    ∃ t, runSteps 46
        { s with script := .host .w32 (.bus 0x44 0x1) :: sendRounds 15 } = .next t ∧
      t.block.busy = false ∧ t.block.status.done = true ∧ t.block.status.success = true ∧
      t.block.baudOut = t.block.baud ∧ t.block.data = s.block.data ∧
      t.uart.txQueue = [] ∧ t.uart.txActive = none ∧
      t.uart.line = s.uart.line ++
        frameChars s.block.fid (s.block.data.toList.take s.block.len.toNat) s.block.baud

/-- READ_FRAME with echo, an empty FIFO and a timely response delivers its data to DATA and succeeds
(43_framer_commands.md R205, 43_framer_commands.md R211, 42_frame_reader.md R177, 20_memory.md R72). The moves
named are one interleaving among all (assumption log 4). -/
def Obligations.ReadFrameDeliversTheResponse : Prop :=
  ∀ (s : State) (data : List Byte), s.rst = false → s.block.Accepts .read →
    s.uart.txReady = true → s.uart.txQueue = [] → s.uart.txActive = none → s.params.echo = true →
    s.uart.onBus = [] →
    s.uart.rxFifo = [] → 12 ≤ s.params.rxDepth → data.length = s.block.len.toNat →
    let response := data ++ (if data = [] then [] else [frameCks s.block.fid data])
    let script := .host .w32 (.bus 0x44 0x2) :: sendRounds 5 ++
      List.replicate 3 arriveIntact ++ arrivals response ++
      List.replicate (response.length + 4) .sequencer
    ∃ t, runSteps script.length { s with script := script } = .next t ∧
      t.block.busy = false ∧ t.block.status.done = true ∧ t.block.status.success = true ∧
      t.block.status.timeout = false ∧ t.block.status.cksErr = false ∧ t.uart.rxFifo = [] ∧
      t.block.data.toList = data ++ s.block.data.toList.drop data.length ∧
      t.uart.line = s.uart.line ++ headerChars s.block.fid s.block.baud

/-- SEND_BREAK sends one break at half rate and stays BUSY for T_WAKE_MS from its end (43_framer_commands.md R206,
41_break_generator.md R147, 70_reset_and_hazards.md R310). The moves named are one interleaving among all
(assumption log 4). -/
def Obligations.SendBreakHoldsTheQuietTime : Prop :=
  ∀ (s : State) (d : Word), s.rst = false → s.block.Accepts .brk → s.uart.txReady = true →
    s.uart.txQueue = [] → s.uart.txActive = none → s.params.Legal →
    let script := .host .w32 (.bus 0x44 0x3) :: sendRounds 3 ++ [.clock d, .sequencer]
    ∃ t, runSteps script.length { s with script := script } = .next t ∧
      t.uart.line = s.uart.line ++ [⟨0x00, s.block.baud >>> 1, false⟩] ∧
      t.block.baudOut = s.block.baud ∧
      (s.params.tWakeMs.toNat ≤ d.toNat →
        t.block.busy = false ∧ t.block.status.done = true ∧ t.block.status.success = true) ∧
      (d.toNat < s.params.tWakeMs.toNat → t.block.busy = true ∧ t.block.status.done = false)

/-- The break holds the line dominant for 18 nominal bit times and recessive for 2, and the line stays recessive
until Sync starts (20_memory.md R69, 30_encoding.md R93, 41_break_generator.md R143). 8N1 with bit 0 first is
from general knowledge, as R69 says, and the line is what the block's transmitter puts on it (assumption log
25). -/
def Obligations.BreakIsEighteenNominalBits : Prop :=
  characterLevels 0x00 = List.replicate 9 .dominant ++ [.recessive] ∧
  (∀ b : Byte, (characterLevels b).length = 10) ∧
  (∀ baud : Word, 2 ≤ baud.toNat → baud.toNat % 2 = 0 →
    SameDuration (dominantRun (characterLevels 0x00)) (baud >>> 1) 18 baud ∧
    SameDuration 1 (baud >>> 1) 2 baud) ∧
  (∀ (u : Uart) (c : TxChar), u.txActive = some c → c.disturbed = false →
    u.onLine = .bits (characterLevels c.byte) c.baud) ∧
  (∀ s t : State, s.nextMove = .txDone → step s = .next t → t.uart.onLine = .steady .recessive) ∧
  (∀ (s t : State) (n : Nat), s.rst = false → s.block.f.state = .brkFlush2 → s.block.f.op ≠ .brk →
    s.uart.txActive = none → s.uart.txQueue = [] → runSteps n s = .next t →
    (∀ k < n, ∀ u, runSteps k s = .next u → u.nextMove ≠ .txStart ∧ u.nextMove ≠ .rst true) →
    t.uart.onLine = .steady .recessive ∧
    (t.uart.txQueue = [] ∨ ∃ rest, t.uart.txQueue = sentChar s.block.baud 0x55 :: rest))

/-- Wire times: a frame of n data bytes is 130 bit times at n = 8, and an 8-byte read takes over 50 ms below 2200
bit/s (70_reset_and_hazards.md R308, 70_reset_and_hazards.md R309). The 10-bit character and the 20 bit times of
a break rest on 8N1 from general knowledge (assumption log 25). -/
def Obligations.SlowRatesOverrunTheReadWindow : Prop :=
  headerBitTimes = 40 ∧ frameBitTimes 0 = 40 ∧ frameBitTimes 8 = 130 ∧
  (∀ n, 1 ≤ n → frameBitTimes n = 40 + 10 * (n + 1)) ∧
  (∀ m, readWindowBitTimes m = 20 + 10 * (m + 1)) ∧
  (∀ baud : Nat, LongerThanMs (readWindowBitTimes 8) baud 50 ↔ baud < 2200)

/-- RX_FLUSH never ends while a byte arrives before every sequencer step (70_reset_and_hazards.md R300,
43_framer_commands.md R219). Moves repeated without end are the model's form of an endless run (assumption log
26). -/
def Obligations.FlushNeverEndsWhileBytesKeepComing : Prop :=
  ∀ (s : State) (b : Byte) (n : Nat), s.rst = false → s.block.f.state = .rxFlushing →
    1 ≤ s.params.rxDepth → s.script = [] →
    s.forever = [.busStart b, arriveIntact, .sequencer] →
    ∃ t, runSteps n s = .next t ∧ t.block.busy = true ∧ t.block.f.state = .rxFlushing ∧
      t.block.status = s.block.status

/-- While rst is 0 no move of the clock, the UART or the other nodes changes the block; the move that lowers rst
changes rst alone (10_state.md R20, 10_state.md R23, 10_state.md R40, 20_memory.md R72, 20_memory.md R73,
70_reset_and_hazards.md R290). That a character starts, leaves and arrives in moves of its own, the draws, and
that lowering rst is no reset step are the model's form (assumption log 12, 13, 16). -/
def Obligations.EnvironmentMovesLeaveTheBlock : Prop :=
  (∀ (s : State) (rest : List Event), s.rst = false →
    (∀ ms, s.pending = .clock ms :: rest →
      step s = .next { s with
        script := rest, nowMs := BitVec.ofNat 32 (s.nowMs.toNat + ms.toNat) }) ∧
    (∀ e, s.pending = e :: rest → e.OfUart →
      ∃ u, s.uart.MovesTo s.params e u ∧ step s = .next { s with script := rest, uart := u })) ∧
  (∀ (s : State) (rest : List Event), s.pending = .rst false :: rest →
    step s = .next { s with script := rest, rst := false })
end

