-- ==== Sys2Proof/Laws/State.lean ====
section
/-! SUPPORT. Laws/State.lean: one lemma per field per named update, each true by rfl, so that no later proof
unfolds a record update. -/

namespace Sys2Proof.Machine

/-! ### A change of the block -/

@[simp] theorem State.mapBlock_block (g : Block → Block) (s : State) :
    (s.mapBlock g).block = g s.block := rfl
@[simp] theorem State.mapBlock_uart (g : Block → Block) (s : State) :
    (s.mapBlock g).uart = s.uart := rfl
@[simp] theorem State.mapBlock_nowMs (g : Block → Block) (s : State) :
    (s.mapBlock g).nowMs = s.nowMs := rfl
@[simp] theorem State.mapBlock_rst (g : Block → Block) (s : State) :
    (s.mapBlock g).rst = s.rst := rfl
@[simp] theorem State.mapBlock_rdata (g : Block → Block) (s : State) :
    (s.mapBlock g).rdata = s.rdata := rfl
@[simp] theorem State.mapBlock_params (g : Block → Block) (s : State) :
    (s.mapBlock g).params = s.params := rfl
@[simp] theorem State.mapBlock_script (g : Block → Block) (s : State) :
    (s.mapBlock g).script = s.script := rfl
@[simp] theorem State.mapBlock_forever (g : Block → Block) (s : State) :
    (s.mapBlock g).forever = s.forever := rfl

/-! ### A change of the UART -/

@[simp] theorem State.mapUart_block (g : Uart → Uart) (s : State) :
    (s.mapUart g).block = s.block := rfl
@[simp] theorem State.mapUart_uart (g : Uart → Uart) (s : State) :
    (s.mapUart g).uart = g s.uart := rfl
@[simp] theorem State.mapUart_nowMs (g : Uart → Uart) (s : State) :
    (s.mapUart g).nowMs = s.nowMs := rfl
@[simp] theorem State.mapUart_rst (g : Uart → Uart) (s : State) :
    (s.mapUart g).rst = s.rst := rfl
@[simp] theorem State.mapUart_rdata (g : Uart → Uart) (s : State) :
    (s.mapUart g).rdata = s.rdata := rfl
@[simp] theorem State.mapUart_params (g : Uart → Uart) (s : State) :
    (s.mapUart g).params = s.params := rfl
@[simp] theorem State.mapUart_script (g : Uart → Uart) (s : State) :
    (s.mapUart g).script = s.script := rfl
@[simp] theorem State.mapUart_forever (g : Uart → Uart) (s : State) :
    (s.mapUart g).forever = s.forever := rfl

/-! ### A read's result -/

@[simp] theorem State.returnRead_block (v : Word) (s : State) :
    (s.returnRead v).block = s.block := rfl
@[simp] theorem State.returnRead_uart (v : Word) (s : State) :
    (s.returnRead v).uart = s.uart := rfl
@[simp] theorem State.returnRead_nowMs (v : Word) (s : State) :
    (s.returnRead v).nowMs = s.nowMs := rfl
@[simp] theorem State.returnRead_rst (v : Word) (s : State) :
    (s.returnRead v).rst = s.rst := rfl
@[simp] theorem State.returnRead_rdata (v : Word) (s : State) :
    (s.returnRead v).rdata = some v := rfl
@[simp] theorem State.returnRead_params (v : Word) (s : State) :
    (s.returnRead v).params = s.params := rfl
@[simp] theorem State.returnRead_script (v : Word) (s : State) :
    (s.returnRead v).script = s.script := rfl
@[simp] theorem State.returnRead_forever (v : Word) (s : State) :
    (s.returnRead v).forever = s.forever := rfl

/-! ### Taking the next move -/

@[simp] theorem State.takeMove_block (s : State) : s.takeMove.block = s.block := rfl
@[simp] theorem State.takeMove_uart (s : State) : s.takeMove.uart = s.uart := rfl
@[simp] theorem State.takeMove_nowMs (s : State) : s.takeMove.nowMs = s.nowMs := rfl
@[simp] theorem State.takeMove_rst (s : State) : s.takeMove.rst = s.rst := rfl
@[simp] theorem State.takeMove_rdata (s : State) : s.takeMove.rdata = s.rdata := rfl
@[simp] theorem State.takeMove_params (s : State) : s.takeMove.params = s.params := rfl
@[simp] theorem State.takeMove_forever (s : State) : s.takeMove.forever = s.forever := rfl
@[simp] theorem State.takeMove_script (s : State) : s.takeMove.script = s.pending.tail := rfl

/-- While the script lasts, its moves are the ones to come. -/
theorem State.pending_of_script {s : State} {e : Event} {rest : List Event} (h : s.script = e :: rest) :
    s.pending = e :: rest := by
  simp [State.pending, h]

/-- Once the script is done, the moves to come are those repeated for ever. -/
theorem State.pending_of_done {s : State} (h : s.script = []) : s.pending = s.forever := by
  simp [State.pending, h]

theorem State.nextMove_of_pending {s : State} {e : Event} {rest : List Event} (h : s.pending = e :: rest) :
    s.nextMove = e := by
  simp [State.nextMove, h]

theorem State.takeMove_of_pending {s : State} {e : Event} {rest : List Event} (h : s.pending = e :: rest) :
    s.takeMove = { s with script := rest } := by
  simp [State.takeMove, h]

/-! ### Placing a host line -/

@[simp] theorem State.placeLine_block (word : HostWord) (s : State) :
    (s.placeLine word).block = s.block := rfl
@[simp] theorem State.placeLine_uart (word : HostWord) (s : State) :
    (s.placeLine word).uart = s.uart := rfl
@[simp] theorem State.placeLine_nowMs (word : HostWord) (s : State) :
    (s.placeLine word).nowMs = s.nowMs := rfl
@[simp] theorem State.placeLine_rst (word : HostWord) (s : State) :
    (s.placeLine word).rst = false := rfl
@[simp] theorem State.placeLine_rdata (word : HostWord) (s : State) :
    (s.placeLine word).rdata = s.rdata := rfl
@[simp] theorem State.placeLine_params (word : HostWord) (s : State) :
    (s.placeLine word).params = s.params := rfl
@[simp] theorem State.placeLine_script (word : HostWord) (s : State) :
    (s.placeLine word).script = .host .w32 word :: s.script := rfl
@[simp] theorem State.placeLine_forever (word : HostWord) (s : State) :
    (s.placeLine word).forever = s.forever := rfl

/-! ### TxPush -/

@[simp] theorem State.txPush_block (b : Byte) (s : State) :
    (s.txPush b).block = s.block := rfl
@[simp] theorem State.txPush_uart (b : Byte) (s : State) :
    (s.txPush b).uart = { s.uart with
      txQueue := s.uart.txQueue ++ [⟨b, s.block.baudOut, false⟩] } := rfl
@[simp] theorem State.txPush_nowMs (b : Byte) (s : State) :
    (s.txPush b).nowMs = s.nowMs := rfl
@[simp] theorem State.txPush_rst (b : Byte) (s : State) :
    (s.txPush b).rst = s.rst := rfl
@[simp] theorem State.txPush_rdata (b : Byte) (s : State) :
    (s.txPush b).rdata = s.rdata := rfl
@[simp] theorem State.txPush_params (b : Byte) (s : State) :
    (s.txPush b).params = s.params := rfl
@[simp] theorem State.txPush_script (b : Byte) (s : State) :
    (s.txPush b).script = s.script := rfl
@[simp] theorem State.txPush_forever (b : Byte) (s : State) :
    (s.txPush b).forever = s.forever := rfl

/-! ### A reset step -/

@[simp] theorem State.resetStep_block (s : State) :
    (s.resetStep).block = s.block.reset := rfl
@[simp] theorem State.resetStep_nowMs (s : State) :
    (s.resetStep).nowMs = s.nowMs := rfl
@[simp] theorem State.resetStep_rst (s : State) :
    (s.resetStep).rst = s.rst := rfl
@[simp] theorem State.resetStep_rdata (s : State) :
    (s.resetStep).rdata = s.rdata := rfl
@[simp] theorem State.resetStep_params (s : State) :
    (s.resetStep).params = s.params := rfl
@[simp] theorem State.resetStep_script (s : State) :
    (s.resetStep).script = s.script := rfl
@[simp] theorem State.resetStep_forever (s : State) :
    (s.resetStep).forever = s.forever := rfl

/-! ### finish -/

@[simp] theorem Block.finish_ctrl (ok : Bool) (b : Block) :
    (b.finish ok).ctrl = b.ctrl := rfl
@[simp] theorem Block.finish_status (ok : Bool) (b : Block) :
    (b.finish ok).status = { b.status with success := ok, done := true } := rfl
@[simp] theorem Block.finish_fid (ok : Bool) (b : Block) :
    (b.finish ok).fid = b.fid := rfl
@[simp] theorem Block.finish_len (ok : Bool) (b : Block) :
    (b.finish ok).len = b.len := rfl
@[simp] theorem Block.finish_baud (ok : Bool) (b : Block) :
    (b.finish ok).baud = b.baud := rfl
@[simp] theorem Block.finish_data (ok : Bool) (b : Block) :
    (b.finish ok).data = b.data := rfl
@[simp] theorem Block.finish_baudOut (ok : Bool) (b : Block) :
    (b.finish ok).baudOut = b.baudOut := rfl
@[simp] theorem Block.finish_f (ok : Bool) (b : Block) :
    (b.finish ok).f = { b.f with state := .idle } := rfl
@[simp] theorem Block.finish_r (ok : Bool) (b : Block) :
    (b.finish ok).r = b.r := rfl

/-! ### The acknowledgement -/

@[simp] theorem Block.acknowledge_ctrl (v : Word) (b : Block) :
    (b.acknowledge v).ctrl = b.ctrl := rfl
@[simp] theorem Block.acknowledge_status (v : Word) (b : Block) :
    (b.acknowledge v).status = b.status.clearFlags v := rfl
@[simp] theorem Block.acknowledge_fid (v : Word) (b : Block) :
    (b.acknowledge v).fid = b.fid := rfl
@[simp] theorem Block.acknowledge_len (v : Word) (b : Block) :
    (b.acknowledge v).len = b.len := rfl
@[simp] theorem Block.acknowledge_baud (v : Word) (b : Block) :
    (b.acknowledge v).baud = b.baud := rfl
@[simp] theorem Block.acknowledge_data (v : Word) (b : Block) :
    (b.acknowledge v).data = b.data := rfl
@[simp] theorem Block.acknowledge_baudOut (v : Word) (b : Block) :
    (b.acknowledge v).baudOut = b.baudOut := rfl
@[simp] theorem Block.acknowledge_f (v : Word) (b : Block) :
    (b.acknowledge v).f = b.f := rfl
@[simp] theorem Block.acknowledge_r (v : Word) (b : Block) :
    (b.acknowledge v).r = b.r := rfl

/-! ### A refused command -/

@[simp] theorem Block.refuse_ctrl (b : Block) :
    (b.refuse).ctrl = b.ctrl := rfl
@[simp] theorem Block.refuse_status (b : Block) :
    (b.refuse).status = { b.status with cmdErr := true } := rfl
@[simp] theorem Block.refuse_fid (b : Block) :
    (b.refuse).fid = b.fid := rfl
@[simp] theorem Block.refuse_len (b : Block) :
    (b.refuse).len = b.len := rfl
@[simp] theorem Block.refuse_baud (b : Block) :
    (b.refuse).baud = b.baud := rfl
@[simp] theorem Block.refuse_data (b : Block) :
    (b.refuse).data = b.data := rfl
@[simp] theorem Block.refuse_baudOut (b : Block) :
    (b.refuse).baudOut = b.baudOut := rfl
@[simp] theorem Block.refuse_f (b : Block) :
    (b.refuse).f = b.f := rfl
@[simp] theorem Block.refuse_r (b : Block) :
    (b.refuse).r = b.r := rfl

/-! ### SetBaud -/

@[simp] theorem Block.setBaud_ctrl (rate : Word) (b : Block) :
    (b.setBaud rate).ctrl = b.ctrl := rfl
@[simp] theorem Block.setBaud_status (rate : Word) (b : Block) :
    (b.setBaud rate).status = b.status := rfl
@[simp] theorem Block.setBaud_fid (rate : Word) (b : Block) :
    (b.setBaud rate).fid = b.fid := rfl
@[simp] theorem Block.setBaud_len (rate : Word) (b : Block) :
    (b.setBaud rate).len = b.len := rfl
@[simp] theorem Block.setBaud_baud (rate : Word) (b : Block) :
    (b.setBaud rate).baud = b.baud := rfl
@[simp] theorem Block.setBaud_data (rate : Word) (b : Block) :
    (b.setBaud rate).data = b.data := rfl
@[simp] theorem Block.setBaud_baudOut (rate : Word) (b : Block) :
    (b.setBaud rate).baudOut = rate := rfl
@[simp] theorem Block.setBaud_f (rate : Word) (b : Block) :
    (b.setBaud rate).f = b.f := rfl
@[simp] theorem Block.setBaud_r (rate : Word) (b : Block) :
    (b.setBaud rate).r = b.r := rfl

/-! ### The next sequencer state -/

@[simp] theorem Block.goto_ctrl (st : FState) (b : Block) :
    (b.goto st).ctrl = b.ctrl := rfl
@[simp] theorem Block.goto_status (st : FState) (b : Block) :
    (b.goto st).status = b.status := rfl
@[simp] theorem Block.goto_fid (st : FState) (b : Block) :
    (b.goto st).fid = b.fid := rfl
@[simp] theorem Block.goto_len (st : FState) (b : Block) :
    (b.goto st).len = b.len := rfl
@[simp] theorem Block.goto_baud (st : FState) (b : Block) :
    (b.goto st).baud = b.baud := rfl
@[simp] theorem Block.goto_data (st : FState) (b : Block) :
    (b.goto st).data = b.data := rfl
@[simp] theorem Block.goto_baudOut (st : FState) (b : Block) :
    (b.goto st).baudOut = b.baudOut := rfl
@[simp] theorem Block.goto_f (st : FState) (b : Block) :
    (b.goto st).f = { b.f with state := st } := rfl
@[simp] theorem Block.goto_r (st : FState) (b : Block) :
    (b.goto st).r = b.r := rfl

/-! ### Starting a deadline -/

@[simp] theorem Block.startTimer_ctrl (now : Word) (st : FState) (b : Block) :
    (b.startTimer now st).ctrl = b.ctrl := rfl
@[simp] theorem Block.startTimer_status (now : Word) (st : FState) (b : Block) :
    (b.startTimer now st).status = b.status := rfl
@[simp] theorem Block.startTimer_fid (now : Word) (st : FState) (b : Block) :
    (b.startTimer now st).fid = b.fid := rfl
@[simp] theorem Block.startTimer_len (now : Word) (st : FState) (b : Block) :
    (b.startTimer now st).len = b.len := rfl
@[simp] theorem Block.startTimer_baud (now : Word) (st : FState) (b : Block) :
    (b.startTimer now st).baud = b.baud := rfl
@[simp] theorem Block.startTimer_data (now : Word) (st : FState) (b : Block) :
    (b.startTimer now st).data = b.data := rfl
@[simp] theorem Block.startTimer_baudOut (now : Word) (st : FState) (b : Block) :
    (b.startTimer now st).baudOut = b.baudOut := rfl
@[simp] theorem Block.startTimer_f (now : Word) (st : FState) (b : Block) :
    (b.startTimer now st).f = { b.f with t0 := now, state := st } := rfl
@[simp] theorem Block.startTimer_r (now : Word) (st : FState) (b : Block) :
    (b.startTimer now st).r = b.r := rfl

/-! ### Starting the reader -/

@[simp] theorem Block.startReader_ctrl (b : Block) :
    (b.startReader).ctrl = b.ctrl := rfl
@[simp] theorem Block.startReader_status (b : Block) :
    (b.startReader).status = b.status := rfl
@[simp] theorem Block.startReader_fid (b : Block) :
    (b.startReader).fid = b.fid := rfl
@[simp] theorem Block.startReader_len (b : Block) :
    (b.startReader).len = b.len := rfl
@[simp] theorem Block.startReader_baud (b : Block) :
    (b.startReader).baud = b.baud := rfl
@[simp] theorem Block.startReader_data (b : Block) :
    (b.startReader).data = b.data := rfl
@[simp] theorem Block.startReader_baudOut (b : Block) :
    (b.startReader).baudOut = b.baudOut := rfl
@[simp] theorem Block.startReader_f (b : Block) :
    (b.startReader).f = b.f := rfl
@[simp] theorem Block.startReader_r (b : Block) :
    (b.startReader).r = b.r.start b.fid b.len := rfl

/-! ### The write of CTRL -/

@[simp] theorem Block.writeCtrl_ctrl (v : Word) (b : Block) :
    (b.writeCtrl v).ctrl = ⟨if b.busy then b.ctrl.verify else v.getLsbD 0,
      if b.busy then b.ctrl.drain else v.getLsbD 1, v.getLsbD 2⟩ := rfl
@[simp] theorem Block.writeCtrl_status (v : Word) (b : Block) :
    (b.writeCtrl v).status = b.status := rfl
@[simp] theorem Block.writeCtrl_fid (v : Word) (b : Block) :
    (b.writeCtrl v).fid = b.fid := rfl
@[simp] theorem Block.writeCtrl_len (v : Word) (b : Block) :
    (b.writeCtrl v).len = b.len := rfl
@[simp] theorem Block.writeCtrl_baud (v : Word) (b : Block) :
    (b.writeCtrl v).baud = b.baud := rfl
@[simp] theorem Block.writeCtrl_data (v : Word) (b : Block) :
    (b.writeCtrl v).data = b.data := rfl
@[simp] theorem Block.writeCtrl_baudOut (v : Word) (b : Block) :
    (b.writeCtrl v).baudOut = b.baudOut := rfl
@[simp] theorem Block.writeCtrl_f (v : Word) (b : Block) :
    (b.writeCtrl v).f = b.f := rfl
@[simp] theorem Block.writeCtrl_r (v : Word) (b : Block) :
    (b.writeCtrl v).r = b.r := rfl

/-! ### A byte received -/

@[simp] theorem Block.received_ctrl (st : ReaderStep) (b : Block) :
    (b.received st).ctrl = b.ctrl := rfl
@[simp] theorem Block.received_status (st : ReaderStep) (b : Block) :
    (b.received st).status = { b.status with cksErr := b.status.cksErr || st.mismatch } := rfl
@[simp] theorem Block.received_fid (st : ReaderStep) (b : Block) :
    (b.received st).fid = b.fid := rfl
@[simp] theorem Block.received_len (st : ReaderStep) (b : Block) :
    (b.received st).len = b.len := rfl
@[simp] theorem Block.received_baud (st : ReaderStep) (b : Block) :
    (b.received st).baud = b.baud := rfl
@[simp] theorem Block.received_data (st : ReaderStep) (b : Block) :
    (b.received st).data = b.data := rfl
@[simp] theorem Block.received_baudOut (st : ReaderStep) (b : Block) :
    (b.received st).baudOut = b.baudOut := rfl
@[simp] theorem Block.received_f (st : ReaderStep) (b : Block) :
    (b.received st).f = b.f := rfl
@[simp] theorem Block.received_r (st : ReaderStep) (b : Block) :
    (b.received st).r = st.reader := rfl

/-! ### Reset of the block -/

@[simp] theorem Block.reset_ctrl (b : Block) :
    (b.reset).ctrl = ⟨true, false, false⟩ := rfl
@[simp] theorem Block.reset_status (b : Block) :
    (b.reset).status = Status.zero := rfl
@[simp] theorem Block.reset_fid (b : Block) :
    (b.reset).fid = 0 := rfl
@[simp] theorem Block.reset_len (b : Block) :
    (b.reset).len = 8 := rfl
@[simp] theorem Block.reset_baud (b : Block) :
    (b.reset).baud = 19200 := rfl
@[simp] theorem Block.reset_data (b : Block) :
    (b.reset).data = Bytes8.zero := rfl
@[simp] theorem Block.reset_baudOut (b : Block) :
    (b.reset).baudOut = 19200 := rfl
@[simp] theorem Block.reset_f (b : Block) :
    (b.reset).f = { b.f with state := .idle } := rfl
@[simp] theorem Block.reset_r (b : Block) :
    (b.reset).r = { b.r with state := .waitForBreak, count := 0 } := rfl

end Sys2Proof.Machine
end

