-- ==== Sys2Proof/Laws/Ops.lean ====
section
/-! SUPPORT. Laws/Ops.lean: for each shared operation, once, everything it can do. -/

namespace Sys2Proof.Machine

/-! ### BUSY and the outcome -/

theorem Block.busy_eq_true_iff (b : Block) : b.busy = true ↔ b.f.state ≠ .idle := by
  simp [Block.busy]

theorem Block.busy_eq_false_iff (b : Block) : b.busy = false ↔ b.f.state = .idle := by
  simp [Block.busy]

@[simp] theorem Block.finish_busy (ok : Bool) (b : Block) : (b.finish ok).busy = false := rfl

@[simp] theorem Block.refuse_busy (b : Block) : b.refuse.busy = b.busy := rfl

@[simp] theorem Block.acknowledge_busy (v : Word) (b : Block) : (b.acknowledge v).busy = b.busy := rfl

@[simp] theorem Block.reset_busy (b : Block) : b.reset.busy = false := rfl

@[simp] theorem Block.reset_irq (b : Block) : b.reset.irq = false := rfl

theorem Block.finish_irq (ok : Bool) (b : Block) : (b.finish ok).irq = b.ctrl.irqEn := by
  simp [Block.irq]

/-! ### Writes while BUSY, and while idle -/

theorem Block.whenIdle_busy {b : Block} (h : b.busy = true) (b' : Block) : b.whenIdle b' = b := by
  simp [Block.whenIdle, h]

theorem Block.whenIdle_idle {b : Block} (h : b.busy = false) (b' : Block) : b.whenIdle b' = b' := by
  simp [Block.whenIdle, h]

/-! ### Commands -/

/-- A command while BUSY is refused. -/
theorem Block.command_busy {b : Block} (h : b.busy = true) (op : Op) : b.command op = b.refuse := by
  simp [Block.command, h]

/-- A command while idle is accepted. -/
theorem Block.command_idle {b : Block} (h : b.busy = false) (op : Op) : b.command op = b.accept op := by
  simp [Block.command, h]

/-- An accepted command with legal operands: the flags are cleared but CMD_ERR, and the sequencer starts. -/
theorem Block.accept_ok {b : Block} {op : Op} (hl : b.badLen op = false) (hb : b.badBaud op = false) :
    b.accept op =
      { b with
        status := b.status.accepted
        f := { b.f with op := op, state := op.firstState } } := by
  simp [Block.accept, hl, hb, Status.accepted]

/-- A command with an illegal operand fails at once: the cause flags and DONE, and the sequencer stays idle. -/
theorem Block.accept_bad {b : Block} {op : Op} (h : (b.badLen op || b.badBaud op) = true) :
    b.accept op =
      { b with
        status := { b.status.accepted with
          lenErr := b.badLen op, cfgErr := b.badBaud op, done := true, success := false }
        f := { b.f with op := op, state := .idle } } := by
  simp [Block.accept, h, Block.finish]

/-! ### The receive port -/

/-- There is nothing to pop exactly when the FIFO is empty. -/
theorem State.rxPop_eq_none_iff (s : State) : s.rxPop = none ↔ s.uart.rxFifo = [] := by
  unfold State.rxPop
  split <;> simp_all

/-- A pop takes the oldest byte and changes nothing but the FIFO. -/
theorem State.rxPop_eq_some_iff (s t : State) (b : Byte) :
    s.rxPop = some (b, t) ↔
      ∃ rest, s.uart.rxFifo = b :: rest ∧ t = { s with uart := { s.uart with rxFifo := rest } } := by
  unfold State.rxPop
  split <;> simp_all
  exact fun _ => eq_comm

/-! ### Eight bytes under an index -/

@[simp] theorem Bytes8.toList_length (x : Bytes8) : x.toList.length = 8 := rfl

theorem Bytes8.first_length (x : Bytes8) (m : Nat) : (x.first m).length = min m 8 := by
  simp [Bytes8.first]

theorem Bytes8.get?_isSome_iff (x : Bytes8) (i : Nat) : (x.get? i).isSome = true ↔ i < 8 := by
  simp [Bytes8.get?]

/-- A byte can be set exactly at the indexes 0 to 7, and setting it replaces it in the list. -/
theorem Bytes8.set?_toList {x y : Bytes8} {i : Nat} {b : Byte} (h : x.set? i b = some y) :
    i < 8 ∧ y.toList = x.toList.set i b := by
  unfold Bytes8.set? at h
  split at h <;> simp at h <;> subst h <;> exact ⟨by omega, rfl⟩

theorem Bytes8.set?_eq_none_iff (x : Bytes8) (i : Nat) (b : Byte) : x.set? i b = none ↔ 8 ≤ i := by
  unfold Bytes8.set?
  split <;> simp_all
  omega

/-- Copying the first `m` bytes takes them from the source and the others from the destination. -/
theorem Bytes8.copyFirst_first (m : Nat) (src dst : Bytes8) :
    (Bytes8.copyFirst m src dst).first m = src.first m := by
  rcases m with _ | _ | _ | _ | _ | _ | _ | _ | m <;>
    simp [Bytes8.first, Bytes8.toList, Bytes8.copyFirst]

/-! ### The reader -/

@[simp] theorem Reader.start_complete {w : Nat} (fid : BitVec w) (len : BitVec 4) (r : Reader) :
    (r.start fid len).complete = false := by
  simp [Reader.complete, Reader.start]

@[simp] theorem Reader.toBreak_complete (r : Reader) : r.toBreak.complete = false := by
  simp [Reader.complete, Reader.toBreak]

/-- A complete reader is given no byte (R174). -/
theorem Reader.processByte_complete {r : Reader} (h : r.complete = true) (b : Byte) :
    r.processByte b = none := by
  simp [Reader.processByte, h]

/-- Everything a byte can do to the reader: one case per row of the source's table. -/
theorem Reader.processByte_cases {r : Reader} {b : Byte} {st : ReaderStep}
    (h : r.processByte b = some st) :
    r.complete = false ∧
    ((r.state = .waitForBreak ∧ b = 0x00 ∧ st = ⟨{ r with state := .waitForSync }, false⟩) ∨
     (r.state = .waitForBreak ∧ b ≠ 0x00 ∧ st = ⟨r, false⟩) ∨
     (r.state = .waitForSync ∧ b = 0x55 ∧ st = ⟨{ r with state := .waitForPid }, false⟩) ∨
     (r.state = .waitForSync ∧ b ≠ 0x55 ∧ st = ⟨r.toBreak, false⟩) ∨
     (r.state = .waitForPid ∧ b = r.pid ∧ st = ⟨{ r with state := .waitForData }, false⟩) ∨
     (r.state = .waitForPid ∧ b ≠ r.pid ∧ st = ⟨r.toBreak, false⟩) ∨
     (r.state = .waitForData ∧ ∃ r', r.append b = some r' ∧ st = ⟨r', false⟩) ∨
     (r.state = .waitForChecksum ∧ b = r.expectedCks ∧
       st = ⟨{ r with state := .frameComplete }, false⟩) ∨
     (r.state = .waitForChecksum ∧ b ≠ r.expectedCks ∧ st = ⟨r.toBreak, true⟩)) := by
  unfold Reader.processByte at h
  split at h
  · simp at h
  · refine ⟨by simp_all, ?_⟩
    cases hs : r.state <;> simp only [hs] at h
    case waitForData =>
      split at h
      · rename_i r' hr'
        simp at h
        exact .inr (.inr (.inr (.inr (.inr (.inr (.inl ⟨rfl, r', hr', h.symm⟩))))))
      · simp at h
    all_goals
      try split at h
      all_goals simp_all

/-- Everything an append can do. -/
theorem Reader.append_cases {r r' : Reader} {b : Byte} (h : r.append b = some r') :
    r.count < r.len ∧ ∃ buf, r.buf.set? r.count.toNat b = some buf ∧
      r' = { r with
        buf := buf
        count := r.count + 1
        state := if r.count + 1 = r.len then .waitForChecksum else .waitForData } := by
  unfold Reader.append at h
  split at h
  · split at h
    · rename_i hlt _ buf hb
      exact ⟨hlt, buf, hb, (Option.some.inj h).symm⟩
    · simp at h
  · simp at h

end Sys2Proof.Machine
end

