-- ==== Sys2Proof/Laws/PerInstr.lean ====
section
/-! SUPPORT. Laws/PerInstr.lean: what holds of every instruction as syntax, one lemma per constructor. -/

/-- The encoder's word of an instruction is a well-formed host word: aligned, and without a value on a read. -/
def Sys2Proof.Laws.EncodeWellFormed.Statement (i : Sys2Proof.Instr) : Prop :=
  (Sys2Proof.encode i).wellFormed = true

namespace Sys2Proof.Laws.EncodeWellFormed

theorem nop (ign : BitVec 28) : Statement (.nop ign) := rfl
theorem writeFrame (ign : BitVec 28) : Statement (.writeFrame ign) := rfl
theorem readFrame (ign : BitVec 28) : Statement (.readFrame ign) := rfl
theorem sendBreak (ign : BitVec 28) : Statement (.sendBreak ign) := rfl
theorem rxFlush (ign : BitVec 28) : Statement (.rxFlush ign) := rfl
theorem reserved5 (ign : BitVec 28) : Statement (.reserved5 ign) := rfl
theorem reserved6 (ign : BitVec 28) : Statement (.reserved6 ign) := rfl
theorem reserved7 (ign : BitVec 28) : Statement (.reserved7 ign) := rfl
theorem reserved8 (ign : BitVec 28) : Statement (.reserved8 ign) := rfl
theorem reserved9 (ign : BitVec 28) : Statement (.reserved9 ign) := rfl
theorem reservedA (ign : BitVec 28) : Statement (.reservedA ign) := rfl
theorem reservedB (ign : BitVec 28) : Statement (.reservedB ign) := rfl
theorem reservedC (ign : BitVec 28) : Statement (.reservedC ign) := rfl
theorem reservedD (ign : BitVec 28) : Statement (.reservedD ign) := rfl
theorem reservedE (ign : BitVec 28) : Statement (.reservedE ign) := rfl
theorem reservedF (ign : BitVec 28) : Statement (.reservedF ign) := rfl
theorem rdCtrl : Statement .rdCtrl := rfl
theorem rdCmd : Statement .rdCmd := rfl
theorem rdStatus : Statement .rdStatus := rfl
theorem rdFid : Statement .rdFid := rfl
theorem rdPid : Statement .rdPid := rfl
theorem rdLen : Statement .rdLen := rfl
theorem rdCks : Statement .rdCks := rfl
theorem rdBaud : Statement .rdBaud := rfl
theorem rdData0 : Statement .rdData0 := rfl
theorem rdData1 : Statement .rdData1 := rfl
theorem rdData2 : Statement .rdData2 := rfl
theorem rdData3 : Statement .rdData3 := rfl
theorem rdData4 : Statement .rdData4 := rfl
theorem rdData5 : Statement .rdData5 := rfl
theorem rdData6 : Statement .rdData6 := rfl
theorem rdData7 : Statement .rdData7 := rfl
theorem wrCtrl (v : Word) : Statement (.wrCtrl v) := rfl
theorem wrCmd (v : Word) : Statement (.wrCmd v) := rfl
theorem wrStatus (v : Word) : Statement (.wrStatus v) := rfl
theorem wrFid (v : Word) : Statement (.wrFid v) := rfl
theorem wrPid (v : Word) : Statement (.wrPid v) := rfl
theorem wrLen (v : Word) : Statement (.wrLen v) := rfl
theorem wrCks (v : Word) : Statement (.wrCks v) := rfl
theorem wrBaud (v : Word) : Statement (.wrBaud v) := rfl
theorem wrData0 (v : Word) : Statement (.wrData0 v) := rfl
theorem wrData1 (v : Word) : Statement (.wrData1 v) := rfl
theorem wrData2 (v : Word) : Statement (.wrData2 v) := rfl
theorem wrData3 (v : Word) : Statement (.wrData3 v) := rfl
theorem wrData4 (v : Word) : Statement (.wrData4 v) := rfl
theorem wrData5 (v : Word) : Statement (.wrData5 v) := rfl
theorem wrData6 (v : Word) : Statement (.wrData6 v) := rfl
theorem wrData7 (v : Word) : Statement (.wrData7 v) := rfl

end Sys2Proof.Laws.EncodeWellFormed
end

