-- ==== Sys2Proof/Laws/Sequencer.lean ====
section
/-! SUPPORT. Laws/Sequencer.lean: everything a sequencer step can do, said once per state of `f.state`. -/

namespace Sys2Proof.Machine

variable {s t : State}

theorem seqStep_idle (h : s.block.f.state = .idle) : seqStep s = .next s := by
  simp [seqStep, h]

/-- BRK_FLUSH1 holds, or drops to the half rate (R140). -/
theorem seqBrkFlush1_cases (h : seqBrkFlush1 s = .next t) :
    (s.txEmpty = false ∧ t = s) ∨
    (s.txEmpty = true ∧ t = s.mapBlock fun b => (b.setBaud b.halfBaud).goto .brkSend) := by
  unfold seqBrkFlush1 at h
  split at h <;> simp_all

/-- BRK_SEND holds, or pushes the break (R141). -/
theorem seqBrkSend_cases (h : seqBrkSend s = .next t) :
    (s.uart.txReady = false ∧ t = s) ∨
    (s.uart.txReady = true ∧ t = (s.txPush 0x00).mapBlock (Block.goto .brkFlush2)) := by
  unfold seqBrkSend at h
  split at h <;> simp_all

/-- BRK_FLUSH2 holds, or restores the rate and goes on to the quiet time or to Sync (R142). -/
theorem seqBrkFlush2_cases (h : seqBrkFlush2 s = .next t) :
    (s.txEmpty = false ∧ t = s) ∨
    (s.txEmpty = true ∧ s.block.f.op = .brk ∧
      t = s.mapBlock fun b => (b.setBaud b.baud).startTimer s.nowMs .wakeDelay) ∨
    (s.txEmpty = true ∧ s.block.f.op ≠ .brk ∧
      t = s.mapBlock fun b => (b.setBaud b.baud).goto .txSync) := by
  unfold seqBrkFlush2 at h
  split at h <;> by_cases ho : s.block.f.op = .brk <;> simp_all [State.mapBlock]

/-- TX_SYNC holds, or pushes Sync (R208). -/
theorem seqTxSync_cases (h : seqTxSync s = .next t) :
    (s.uart.txReady = false ∧ t = s) ∨
    (s.uart.txReady = true ∧ t = (s.txPush 0x55).mapBlock (Block.goto .txPid)) := by
  unfold seqTxSync at h
  split at h <;> simp_all

/-- TX_PID holds, or pushes the PID and goes on (R209). -/
theorem seqTxPid_cases (h : seqTxPid s = .next t) :
    (s.uart.txReady = false ∧ t = s) ∨
    (s.uart.txReady = true ∧
      t = (s.txPush s.block.framePid).mapBlock (Block.afterPid s.nowMs)) := by
  unfold seqTxPid at h
  split at h <;> simp_all

/-- TX_DATA holds, or pushes the data byte at `f.idx`, which is below LEN (R213). -/
theorem seqTxData_cases (h : seqTxData s = .next t) :
    (s.uart.txReady = false ∧ t = s) ∨
    (s.uart.txReady = true ∧ s.block.f.idx < s.block.len ∧
      ∃ d, s.block.data.get? s.block.f.idx.toNat = some d ∧
        t = (s.txPush d).mapBlock Block.afterData) := by
  unfold seqTxData at h
  split at h
  · split at h
    · split at h
      · rename_i hr hi _ d hd
        exact .inr ⟨hr, hi, d, hd, by simpa using h.symm⟩
      · simp at h
    · simp at h
  · simp_all

/-- TX_CKS holds, or pushes the checksum (R214). -/
theorem seqTxCks_cases (h : seqTxCks s = .next t) :
    (s.uart.txReady = false ∧ t = s) ∨
    (s.uart.txReady = true ∧
      t = (s.txPush s.block.frameChecksum).mapBlock (Block.goto .txFlush)) := by
  unfold seqTxCks at h
  split at h <;> simp_all

/-- TX_FLUSH holds, or goes on once the frame has been sent (R215). -/
theorem seqTxFlush_cases (h : seqTxFlush s = .next t) :
    (s.txEmpty = false ∧ t = s) ∨
    (s.txEmpty = true ∧ t = s.mapBlock (Block.afterFlush s.nowMs)) := by
  unfold seqTxFlush at h
  split at h <;> simp_all

/-- RX_POLL: completion, then the deadline, then a byte, else hold (R210). -/
theorem seqRxPoll_cases (h : seqRxPoll s = .next t) :
    (s.block.r.complete = true ∧ t = s.mapBlock Block.complete) ∨
    (s.block.r.complete = false ∧ s.deadline Config.tFrameMs = true ∧
      t = s.mapBlock (Block.timeOut s.nowMs)) ∨
    (s.block.r.complete = false ∧ s.deadline Config.tFrameMs = false ∧
      s.uart.rxFifo = [] ∧ t = s) ∨
    (s.block.r.complete = false ∧ s.deadline Config.tFrameMs = false ∧
      ∃ byte s' st, s.rxPop = some (byte, s') ∧ s.block.r.processByte byte = some st ∧
        t = s'.mapBlock (Block.received st)) := by
  unfold seqRxPoll at h
  split at h
  · simp_all
  · split at h
    · simp_all
    · split at h
      · rename_i hc hd hp
        simp_all [State.rxPop_eq_none_iff]
      · split at h
        · rename_i hc hd _ byte s' hp _ st hst
          exact .inr (.inr (.inr ⟨by simpa using hc, by simpa using hd, byte, s', st, hp, hst,
            by simpa using h.symm⟩))
        · simp at h

/-- DRAIN: nothing left, then the deadline, then a byte, else hold (R216). -/
theorem seqDrain_cases (h : seqDrain s = .next t) :
    ((s.block.f.k = 0 ∨ s.deadline Config.tFrameMs = true) ∧ t = s.mapBlock (Block.finish true)) ∨
    (s.block.f.k ≠ 0 ∧ s.deadline Config.tFrameMs = false ∧ s.uart.rxFifo = [] ∧ t = s) ∨
    (s.block.f.k ≠ 0 ∧ s.deadline Config.tFrameMs = false ∧
      ∃ byte s', s.rxPop = some (byte, s') ∧
        t = s'.mapBlock fun b => { b with f := { b.f with k := b.f.k - 1 } }) := by
  unfold seqDrain at h
  split at h
  · simp_all
  · split at h
    · simp_all
    · split at h
      · rename_i hk hd hp
        simp_all [State.rxPop_eq_none_iff]
      · rename_i hk hd _ byte s' hp
        exact .inr (.inr ⟨hk, by simpa using hd, byte, s', hp, by simpa using h.symm⟩)

/-- RX_FLUSHING: a byte discarded, or the end (R219). -/
theorem seqRxFlushing_cases (h : seqRxFlushing s = .next t) :
    (∃ byte, s.rxPop = some (byte, t)) ∨
    (s.uart.rxFifo = [] ∧ t = s.mapBlock (Block.finish true)) := by
  unfold seqRxFlushing at h
  split at h
  · rename_i byte s' hp
    simp at h
    exact .inl ⟨byte, by rw [hp, h]⟩
  · rename_i hp
    rw [State.rxPop_eq_none_iff] at hp
    exact .inr ⟨hp, by simpa using h.symm⟩

/-- Every sequencer step is a change of the block alone, a push with it, or a pop with it. -/
theorem seqStep_shape (h : seqStep s = .next t) :
    (∃ b, t = { s with block := b }) ∨
    (∃ byte b, s.uart.txReady = true ∧ t = { s.txPush byte with block := b }) ∨
    (∃ byte rest b, s.uart.rxFifo = byte :: rest ∧
      t = { s with block := b, uart := { s.uart with rxFifo := rest } }) := by
  have held : (∃ b, s = { s with block := b }) := ⟨s.block, rfl⟩
  have pop : ∀ {byte s'}, s.rxPop = some (byte, s') → ∀ g : Block → Block,
      ∃ byte rest b, s.uart.rxFifo = byte :: rest ∧
        s'.mapBlock g = { s with block := b, uart := { s.uart with rxFifo := rest } } := by
    intro byte s' hp g
    obtain ⟨rest, hf, rfl⟩ := (State.rxPop_eq_some_iff _ _ _).1 hp
    exact ⟨byte, rest, g s.block, hf, rfl⟩
  unfold seqStep at h
  split at h
  · simp at h; subst h; exact .inl held
  · obtain ⟨-, rfl⟩ | ⟨-, rfl⟩ := seqBrkFlush1_cases h
    exacts [.inl held, .inl ⟨_, rfl⟩]
  · obtain ⟨-, rfl⟩ | ⟨hr, rfl⟩ := seqBrkSend_cases h
    exacts [.inl held, .inr (.inl ⟨_, _, hr, rfl⟩)]
  · obtain ⟨-, rfl⟩ | ⟨-, -, rfl⟩ | ⟨-, -, rfl⟩ := seqBrkFlush2_cases h
    exacts [.inl held, .inl ⟨_, rfl⟩, .inl ⟨_, rfl⟩]
  · obtain ⟨-, rfl⟩ | ⟨hr, rfl⟩ := seqTxSync_cases h
    exacts [.inl held, .inr (.inl ⟨_, _, hr, rfl⟩)]
  · obtain ⟨-, rfl⟩ | ⟨hr, rfl⟩ := seqTxPid_cases h
    exacts [.inl held, .inr (.inl ⟨_, _, hr, rfl⟩)]
  · obtain ⟨-, rfl⟩ | ⟨hr, -, d, -, rfl⟩ := seqTxData_cases h
    exacts [.inl held, .inr (.inl ⟨_, _, hr, rfl⟩)]
  · obtain ⟨-, rfl⟩ | ⟨hr, rfl⟩ := seqTxCks_cases h
    exacts [.inl held, .inr (.inl ⟨_, _, hr, rfl⟩)]
  · obtain ⟨-, rfl⟩ | ⟨-, rfl⟩ := seqTxFlush_cases h
    exacts [.inl held, .inl ⟨_, rfl⟩]
  · obtain ⟨-, rfl⟩ | ⟨-, -, rfl⟩ | ⟨-, -, -, rfl⟩ | ⟨-, -, byte, s', st, hp, -, rfl⟩ :=
      seqRxPoll_cases h
    exacts [.inl ⟨_, rfl⟩, .inl ⟨_, rfl⟩, .inl held, .inr (.inr (pop hp _))]
  · obtain ⟨-, rfl⟩ | ⟨-, -, -, rfl⟩ | ⟨-, -, byte, s', hp, rfl⟩ := seqDrain_cases h
    exacts [.inl ⟨_, rfl⟩, .inl held, .inr (.inr (pop hp _))]
  · unfold seqWakeDelay at h
    split at h <;> simp at h <;> subst h
    exacts [.inl ⟨_, rfl⟩, .inl held]
  · unfold seqFailDelay at h
    split at h <;> simp at h <;> subst h
    exacts [.inl ⟨_, rfl⟩, .inl held]
  · obtain ⟨byte, hp⟩ | ⟨-, rfl⟩ := seqRxFlushing_cases h
    exacts [.inr (.inr (pop hp id)), .inl ⟨_, rfl⟩]

end Sys2Proof.Machine
end

