-- ==== Sys2Proof/Laws/Step.lean ====
section
/-! SUPPORT. Laws/Step.lean: what a move and an instruction can do, said once. -/

namespace Sys2Proof.Machine

/-- With no move to come the block moves by itself. -/
theorem step_alone {s : State} (h : s.pending = []) : step s = blockMove { s with script := [] } := by
  simp [step, State.nextMove, State.takeMove, h, move]

/-- Otherwise the next move is made, at the state without it. -/
theorem step_pending {s : State} {e : Event} {rest : List Event} (h : s.pending = e :: rest) :
    step s = move e { s with script := rest } := by
  rw [step, State.nextMove_of_pending h, State.takeMove_of_pending h]

/-- So it is with the first move of the script. -/
theorem step_script {s : State} {e : Event} {rest : List Event} (h : s.script = e :: rest) :
    step s = move e { s with script := rest } :=
  step_pending (State.pending_of_script h)

theorem blockMove_running {s : State} (h : s.rst = false) : blockMove s = seqStep s := by
  simp [blockMove, h]

theorem blockMove_reset {s : State} (h : s.rst = true) : blockMove s = .next s.resetStep := by
  simp [blockMove, h]

theorem envMove_running {s : State} (h : s.rst = false) : envMove s = .next s := by
  simp [envMove, h]

theorem envMove_reset {s : State} (h : s.rst = true) : envMove s = .next s.resetStep := by
  simp [envMove, h]

theorem hostMove_running {s : State} (h : s.rst = false) (width : AccessWidth) (word : HostWord) :
    hostMove width word s = hostAccess width word s := by
  simp [hostMove, h]

/-- Every instruction answers a next state that differs in the block alone, or in the read result alone. -/
theorem exec_shape (i : Instr) (s : State) :
    (∃ b, exec i s = .next { s with block := b }) ∨ (∃ v, exec i s = .next (s.returnRead v)) := by
  have held : ∃ b, (.next s : StepOutcome) = .next { s with block := b } := ⟨s.block, rfl⟩
  have changed : ∀ g, ∃ b, (.next (s.mapBlock g) : StepOutcome) = .next { s with block := b } :=
    fun g => ⟨g s.block, rfl⟩
  cases i
  case wrCmd v =>
    left
    simp only [exec, execWrCmd]
    split
    exacts [held, changed _, changed _, changed _, changed _, changed _, changed _, changed _,
      changed _, changed _, changed _, changed _, changed _, changed _, changed _, changed _]
  all_goals first
    | exact .inl held
    | exact .inl (changed _)
    | exact .inr ⟨_, rfl⟩

/-- Every instruction completes (70_reset_and_hazards.md R305, 60_exceptions.md R270). -/
theorem exec_completes (i : Instr) (s : State) : ∃ t, exec i s = .next t := by
  obtain ⟨b, h⟩ | ⟨v, h⟩ := exec_shape i s
  exacts [⟨_, h⟩, ⟨_, h⟩]

/-- What is kept is a subsequence. -/
theorem keptBytes_sublist (ms : List Bool) (bs : List Byte) : (keptBytes ms bs).Sublist bs := by
  induction ms, bs using keptBytes.induct with
  | case1 bs => simp [keptBytes]
  | case2 m ms => simp [keptBytes]
  | case3 ms b bs ih => exact ih.cons b
  | case4 ms b bs ih => exact ih.cons_cons b

/-- An arriving byte changes the receive FIFO alone. -/
theorem arrive_frame (depth : Nat) (b : Byte) (draw : OverflowDraw) (u : Uart) :
    ∃ fifo, u.arrive depth b draw = { u with rxFifo := fifo } := by
  unfold Uart.arrive
  split
  exacts [⟨_, rfl⟩, ⟨_, rfl⟩]

/-- With room in the FIFO, an arriving byte goes to its end. -/
theorem arrive_room {depth : Nat} {u : Uart} (h : u.rxFifo.length < depth) (b : Byte) (draw : OverflowDraw) :
    u.arrive depth b draw = { u with rxFifo := u.rxFifo ++ [b] } := by
  simp [Uart.arrive, h]

/-- An arrival never fills the FIFO beyond its capacity. -/
theorem arrive_fits (depth : Nat) (b : Byte) (draw : OverflowDraw) (u : Uart) :
    (u.arrive depth b draw).rxFifo.length ≤ depth := by
  unfold Uart.arrive
  split
  · simp
    omega
  · simp

/-- A character starts only when none is going out and one waits. -/
theorem startOne_cases (echo : Bool) (u : Uart) :
    u.startOne echo = u ∨
    (u.txActive = none ∧ ∃ c rest, u.txQueue = c :: rest ∧
      u.startOne echo = { u with
        txQueue := rest, txActive := some c,
        onBus := if echo then u.onBus ++ [c.byte] else u.onBus }) := by
  unfold Uart.startOne
  split
  · rename_i c rest ha hq
    refine .inr ⟨ha, c, rest, hq, ?_⟩
    cases echo <;> rfl
  · exact .inl rfl

/-- A character leaves only when one is going out. -/
theorem sendOne_cases (u : Uart) :
    (u.txActive = none ∧ u.sendOne = u) ∨
    ∃ c, u.txActive = some c ∧ u.sendOne = { u with txActive := none, line := u.line ++ [c] } := by
  unfold Uart.sendOne
  split
  · rename_i h; exact .inl ⟨h, rfl⟩
  · rename_i c h; exact .inr ⟨c, h, rfl⟩

/-- The receiver takes the byte that started first, and only the FIFO changes beside. -/
theorem receiveOne_cases (depth : Nat) (draw : ArrivalDraw) (overflow : OverflowDraw) (u : Uart) :
    (u.onBus = [] ∧ u.receiveOne depth draw overflow = u) ∨
    ∃ b rest fifo, u.onBus = b :: rest ∧
      u.receiveOne depth draw overflow = { u with onBus := rest, rxFifo := fifo } := by
  unfold Uart.receiveOne
  split
  · rename_i h; exact .inl ⟨h, rfl⟩
  · rename_i b rest h
    refine .inr ⟨b, rest, ?_⟩
    dsimp only
    split
    · rename_i x _
      obtain ⟨fifo, hf⟩ := arrive_frame depth x overflow { u with onBus := rest }
      exact ⟨fifo, h, hf⟩
    · exact ⟨u.rxFifo, h, rfl⟩

/-- While no character goes out the line is recessive. -/
theorem onLine_resting {u : Uart} (h : u.txActive = none) : u.onLine = .steady .recessive := by
  simp [Uart.onLine, h]

/-- An undisturbed character goes out bit by bit. -/
theorem onLine_sending {u : Uart} {c : TxChar} (h : u.txActive = some c) (hd : c.disturbed = false) :
    u.onLine = .bits (characterLevels c.byte) c.baud := by
  simp [Uart.onLine, h, TxChar.levels, hd]

/-- What a disturbed character puts on the line is left open. -/
theorem onLine_disturbed {u : Uart} {c : TxChar} (h : u.txActive = some c) (hd : c.disturbed = true) :
    u.onLine = .drawn := by
  simp [Uart.onLine, h, TxChar.levels, hd]

/-- A byte that is not lost is what arrives. -/
theorem receiveOne_some {depth : Nat} {draw : ArrivalDraw} {overflow : OverflowDraw} {u : Uart} {b x : Byte}
    {rest : List Byte} (h : u.onBus = b :: rest) (hx : draw.received b = some x) :
    u.receiveOne depth draw overflow = ({ u with onBus := rest } : Uart).arrive depth x overflow := by
  simp [Uart.receiveOne, h, hx]

/-- A lost byte only leaves the bus. -/
theorem receiveOne_lost {depth : Nat} {overflow : OverflowDraw} {u : Uart} {b : Byte} {rest : List Byte}
    (h : u.onBus = b :: rest) : u.receiveOne depth .lost overflow = { u with onBus := rest } := by
  simp [Uart.receiveOne, h, ArrivalDraw.received]

end Sys2Proof.Machine
end

