-- ==== Sys2Proof/Tests/Slice0.lean ====
section
/-! SUPPORT. Tests/Slice0.lean: small tests, each of one step or one function, and for every statement with
hypotheses a witness that meets them. Expected values come from spec/95_test_vectors.md (its vector's name stands
in the docstring) or from the rule named. -/

namespace Sys2Proof.Tests

open Sys2Proof.Machine

/-! ### Small states -/

/-- The reset state with the OPEN parameters at concrete values: T_FAIL_DELAY_MS 10, ECHO true, RX_DEPTH 16,
LIN_BASE 0x1000. -/
def base : State := { State.reset with params := ⟨10, 100, true, 16, 0x1000⟩ }

/-- `base` with a change of its block. -/
def blk (g : Block → Block) : State := base.mapBlock g

/-- `base` with the sequencer in `st` for `op`. -/
def inState (st : FState) (op : Op) : State := blk fun b => { b with f := { b.f with state := st, op := op } }

/-- A state with its next moves. -/
def withScript (s : State) (es : List Event) : State := { s with script := es }

/-- A state with bytes in its receive FIFO. -/
def withFifo (s : State) (bs : List Byte) : State := { s with uart := { s.uart with rxFifo := bs } }

/-- A state with one character going out and one waiting. -/
def sending (s : State) : State :=
  { s with uart := { s.uart with txActive := some ⟨0x00, 9600, false⟩, txQueue := [⟨0x55, 9600, false⟩] } }

/-- A state with characters waiting to start on the bus. -/
def withQueue (s : State) (q : List TxChar) : State := { s with uart := { s.uart with txQueue := q } }

/-- A state with bytes on the bus. -/
def withBus (s : State) (bs : List Byte) : State := { s with uart := { s.uart with onBus := bs } }

/-- A state whose UART does not take a byte. -/
def notReady (s : State) : State := { s with uart := { s.uart with txReady := false } }

/-- A state at a time. -/
def atTime (s : State) (now : Word) : State := { s with nowMs := now }

/-- A state with `rst` at 1. -/
def inReset (s : State) : State := { s with rst := true }

/-- Whether an outcome is a next state with a property. -/
def nextIs (o : StepOutcome) (p : State → Bool) : Bool :=
  match o with
  | .next t => p t
  | _ => false

/-- Whether an outcome is a next state whose STATUS reads `v`. -/
def statusIs (o : StepOutcome) (v : Word) : Bool := nextIs o fun t => t.block.statusWord == v

/-- Whether an outcome is a next state that returned `v`. -/
def readIs (o : StepOutcome) (v : Word) : Bool := nextIs o fun t => t.rdata == some v

/-- The bytes of the source's scenario S2 response (95_test_vectors.md section 1.2). -/
def s2 : List Byte := [0x0A, 0x06, 0xF2, 0x06, 0x2E, 0x80, 0x10, 0x56]

/-- The same as eight bytes. -/
def s2Bytes : Bytes8 := ⟨0x0A, 0x06, 0xF2, 0x06, 0x2E, 0x80, 0x10, 0x56⟩

/-- A reader started by R160. -/
def started (fid : FrameId) (len : BitVec 4) : Reader := base.block.r.start fid len

/-- Where a run of bytes leaves a reader: state, count, CKS_ERR. None when a byte is refused. -/
def fed (fid : FrameId) (len : BitVec 4) (bs : List Byte) : Option (RState × BitVec 4 × Bool) :=
  ((started fid len).feed bs).map fun st => (st.reader.state, st.reader.count, st.mismatch)

/-! ### WellFormed: each check refuses an ill-formed term -/

theorem test_wellFormed_refuses_narrow_access : accessWellFormed .w16 (.bus 0x08 0) = false := by decide
theorem test_wellFormed_refuses_byte_access : accessWellFormed .w8 (.cmd 1) = false := by decide
theorem test_wellFormed_refuses_wide_access : accessWellFormed .w64 (.bus 0x20 0) = false := by decide
theorem test_wellFormed_refuses_misaligned_access : accessWellFormed .w32 (.bus 0x0A 0) = false := by decide
theorem test_wellFormed_refuses_read_with_value : accessWellFormed .w32 (.bus 0x08 1) = false := by decide
theorem test_wellFormed_takes_aligned_write : accessWellFormed .w32 (.bus 0x7C 0xFF) = true := by decide

/-! ### Decode: words written out from R96 and R98 -/

theorem test_decode_commands :
    [0x0, 0x1, 0x2, 0x3, 0x4].map (fun w => decode (.cmd w)) =
      [.ok (.nop 0), .ok (.writeFrame 0), .ok (.readFrame 0), .ok (.sendBreak 0), .ok (.rxFlush 0)] := by
  decide

theorem test_decode_reserved_low :
    [0x5, 0x6, 0x7, 0x8, 0x9, 0xA].map (fun w => decode (.cmd w)) =
      [.ok (.reserved5 0), .ok (.reserved6 0), .ok (.reserved7 0), .ok (.reserved8 0),
        .ok (.reserved9 0), .ok (.reservedA 0)] := by
  decide

theorem test_decode_reserved_high :
    [0xB, 0xC, 0xD, 0xE, 0xF].map (fun w => decode (.cmd w)) =
      [.ok (.reservedB 0), .ok (.reservedC 0), .ok (.reservedD 0), .ok (.reservedE 0),
        .ok (.reservedF 0)] := by
  decide

/-- Vector A10: `wr CMD, 0xFFFF_FFF0` is a NOP with every ignored bit set. -/
theorem test_decode_ignored_bits : decode (.cmd 0xFFFFFFF0) = .ok (.nop 0xFFFFFFF) := by decide

theorem test_decode_reads_low :
    [0x00, 0x04, 0x08, 0x0C, 0x10, 0x14, 0x18, 0x1C].map (fun w => decode (.bus w 0)) =
      [.ok .rdCtrl, .ok .rdCmd, .ok .rdStatus, .ok .rdFid, .ok .rdPid, .ok .rdLen, .ok .rdCks,
        .ok .rdBaud] := by
  decide

theorem test_decode_reads_high :
    [0x20, 0x24, 0x28, 0x2C, 0x30, 0x34, 0x38, 0x3C].map (fun w => decode (.bus w 0)) =
      [.ok .rdData0, .ok .rdData1, .ok .rdData2, .ok .rdData3, .ok .rdData4, .ok .rdData5,
        .ok .rdData6, .ok .rdData7] := by
  decide

theorem test_decode_writes_low :
    [0x40, 0x44, 0x48, 0x4C, 0x50, 0x54, 0x58, 0x5C].map (fun w => decode (.bus w 7)) =
      [.ok (.wrCtrl 7), .ok (.wrCmd 7), .ok (.wrStatus 7), .ok (.wrFid 7), .ok (.wrPid 7),
        .ok (.wrLen 7), .ok (.wrCks 7), .ok (.wrBaud 7)] := by
  decide

theorem test_decode_writes_high :
    [0x60, 0x64, 0x68, 0x6C, 0x70, 0x74, 0x78, 0x7C].map (fun w => decode (.bus w 7)) =
      [.ok (.wrData0 7), .ok (.wrData1 7), .ok (.wrData2 7), .ok (.wrData3 7), .ok (.wrData4 7),
        .ok (.wrData5 7), .ok (.wrData6 7), .ok (.wrData7 7)] := by
  decide

theorem test_decode_misaligned : decode (.bus 0x4D 0) = .error (.misaligned 0x0D) := by decide

/-- Table words: a CMD row of 4 bits, a BUS row, a write with its value above the low byte (log 1). -/
theorem test_decodeTableWord :
    decodeTableWord 4 0x2 = some (.readFrame 0) ∧ decodeTableWord 8 0x05 = some (.reserved5 0) ∧
    decodeTableWord 8 0x44 = some (.wrCmd 0) ∧ decodeTableWord 40 0x3C4C = some (.wrFid 0x3C) ∧
    decodeTableWord 8 0x08 = some .rdStatus ∧ decodeTableWord 4 0x8 = some (.reserved8 0) := by
  decide

/-- R103: the pseudo-instructions `cmd READ_FRAME`, `clr` and `frame`. -/
theorem test_pseudo_instructions :
    cmdLine 0x2 = [.wrCmd 0x2] ∧ clrLine 0x8FA = [.wrStatus 0x8FA] ∧
    frameLines 0x3C 2 [0x11, 0x22] = [.wrFid 0x3C, .wrLen 2, .wrData0 0x11, .wrData1 0x22] ∧
    waitDoneEnds 0x6 = true ∧ waitIdleEnds 0x10001 = false := by
  decide

/-! ### Running a word right after reset -/

theorem test_reset_runs_rdStatus : readIs (step (State.reset.withFetchWord 8 0x08)) 0 = true := by decide
theorem test_reset_runs_readFrame :
    statusIs (step (State.reset.withFetchWord 4 0x2)) 0x00010001 = true := by decide
theorem test_reset_runs_wrFid :
    nextIs (step (State.reset.withFetchWord 40 0x3D4C)) (fun t => t.block.fid == 0x3D) = true := by decide
theorem test_reset_runs_reserved :
    statusIs (step (State.reset.withFetchWord 8 0x0F)) 0x80 = true := by decide

/-! ### The engine (section 2) -/

/-- Section 2.1, the first two rows of columns. -/
theorem test_pid_low :
    (List.range 32).map (fun f => (pid (BitVec.ofNat 6 f)).toNat) =
      [0x80, 0xC1, 0x42, 0x03, 0xC4, 0x85, 0x06, 0x47, 0x08, 0x49, 0xCA, 0x8B, 0x4C, 0x0D, 0x8E, 0xCF] ++
      [0x50, 0x11, 0x92, 0xD3, 0x14, 0x55, 0xD6, 0x97, 0xD8, 0x99, 0x1A, 0x5B, 0x9C, 0xDD, 0x5E, 0x1F] := by
  decide

/-- Section 2.1, the last two. -/
theorem test_pid_high :
    (List.range 32).map (fun f => (pid (BitVec.ofNat 6 (32 + f))).toNat) =
      [0x20, 0x61, 0xE2, 0xA3, 0x64, 0x25, 0xA6, 0xE7, 0xA8, 0xE9, 0x6A, 0x2B, 0xEC, 0xAD, 0x2E, 0x6F] ++
      [0xF0, 0xB1, 0x32, 0x73, 0xB4, 0xF5, 0x76, 0x37, 0x78, 0x39, 0xBA, 0xFB, 0x3C, 0x7D, 0xFE, 0xBF] := by
  decide

theorem test_pid_masks : pid (0x44 : Word) = 0xC4 ∧ pid (0xFF : Word) = 0xBF := by decide

/-- Section 2.2, the second-fold row `FF FF 01` among them. -/
theorem test_cks_corner_cases :
    cks 0x00 [] = 0xFF ∧ cks 0x00 (List.replicate 8 0x00) = 0xFF ∧ cks 0x00 [0xFF] = 0x00 ∧
    cks 0x00 [0x01, 0xFF] = 0xFE ∧ cks 0x80 [] = 0x7F ∧ cks 0x4A [0x55, 0x93, 0xE5] = 0xE6 ∧
    cks 0xFF (List.replicate 8 0xFF) = 0x00 ∧ cks 0x00 [0xFF, 0xFF, 0x01] = 0xFE := by
  decide

/-- Section 2.4. -/
theorem test_frameCks :
    frameCks (0x3B : FrameId) [0x11, 0x22] = 0xD0 ∧ frameCks (0x3C : FrameId) [0x11, 0x22] = 0xCC ∧
    frameCks (0x3F : FrameId) [0x11, 0x22] = 0xCC ∧ frameCks (0x15 : FrameId) [0xAA] = 0x00 ∧
    frameCks (0x44 : Word) [1, 2, 3, 4, 5, 6, 7, 8] = 0x17 ∧ frameCks (0x3D : FrameId) s2 = 0xE1 ∧
    frameCks (0x3C : FrameId) [0x7F, 0x06, 0xB2, 0x00, 0xFF, 0x7F, 0xFF, 0x3F] = 0x09 := by
  decide

/-- Section 2.5: CKS with LEN 8, 9 and 0. -/
theorem test_cks_register :
    [8, 9, 0].map (fun n => (blk fun b => { b with fid := 0x3D, len := n, data := s2Bytes }).block.cksWord) =
      [0xE1, 0xE1, 0xFF] := by
  decide

/-! ### The reader (section 3) -/

theorem test_reader_T1 :
    fed 0x3D 8 ([0x00, 0x55, 0x7D] ++ s2 ++ [0xE1]) = some (.frameComplete, 8, false) := by decide
theorem test_reader_T4 : fed 0x3D 8 [0x00, 0x00, 0x55, 0x7D] = some (.waitForBreak, 0, false) := by decide
theorem test_reader_T5 : fed 0x3D 8 [0x00, 0x00, 0x00, 0x55, 0x7D] = some (.waitForData, 0, false) := by
  decide
theorem test_reader_T7_head :
    fed 0x3D 8 ([0x00, 0x55, 0x7D] ++ s2 ++ [0xE0]) = some (.waitForBreak, 0, true) := by decide
theorem test_reader_T8 :
    fed 0x3C 0 [0x00, 0x55, 0x3C] = some (.waitForData, 0, false) ∧
    fed 0x3C 0 [0x00, 0x55, 0x3C, 0x99] = none := by decide
theorem test_reader_T9 : fed 0x15 1 [0x00, 0x55, 0x55, 0xAA, 0x00] = some (.frameComplete, 1, false) := by
  decide
theorem test_reader_T10 :
    fed 0x3D 3 [0x00, 0x55, 0x7D, 0x00, 0x55, 0x7D, 0x2D] = some (.frameComplete, 3, false) := by decide
theorem test_reader_T17 : fed 0x3D 8 [0x00, 0x55, 0x55, 0x7D] = some (.waitForBreak, 0, false) := by decide

/-! ### Commands (section 4.1) -/

/-- Vector A1. -/
theorem test_A1_writeFrame_len9 :
    statusIs (exec (.wrCmd 0x1) (blk fun b => { b with len := 9 })) 0x42 = true := by decide
/-- Vector A2. -/
theorem test_A2_readFrame_baud1 :
    statusIs (exec (.readFrame 0) (blk fun b => { b with baud := 1 })) 0x802 = true := by decide
/-- Vector A3. -/
theorem test_A3_writeFrame_both :
    statusIs (exec (.writeFrame 0) (blk fun b => { b with len := 9, baud := 0 })) 0x842 = true := by decide
/-- Vector A4. -/
theorem test_A4_sendBreak_baud1 :
    statusIs (exec (.sendBreak 0) (blk fun b => { b with baud := 1 })) 0x802 = true := by decide
/-- Vectors A5 and F1, their STATUS just after the CMD write: neither length nor rate stands in the way. -/
theorem test_A5_sendBreak_len9 :
    statusIs (exec (.sendBreak 0) (blk fun b => { b with len := 9 })) 0x10001 = true := by decide
theorem test_A6_rxFlush_unchecked :
    statusIs (exec (.rxFlush 0) (blk fun b => { b with len := 9, baud := 0 })) 0xD0001 = true := by decide
/-- Vector A7. -/
theorem test_A7_refused_while_busy :
    statusIs (exec (.wrCmd 0x2) (inState .brkFlush1 .brk)) 0x10081 = true := by decide
/-- Vector A8. -/
theorem test_A8_nop_while_busy :
    statusIs (exec (.wrCmd 0x0) (inState .brkFlush1 .brk)) 0x10001 = true := by decide
/-- Vector A9, at both ends of the reserved range. -/
theorem test_A9_reserved :
    statusIs (exec (.wrCmd 0x5) base) 0x80 = true ∧ statusIs (exec (.wrCmd 0xF) base) 0x80 = true := by decide
/-- Vector A12. -/
theorem test_A12_ignored_bits : statusIs (exec (.wrCmd 0x12) base) 0x10001 = true := by decide
/-- Vectors A13 and A14. -/
theorem test_A13_A14_wrStatus :
    statusIs (exec (.wrStatus 0x80)
      (blk fun b => { b with status := { b.status with cmdErr := true, done := true, success := true } })) 0x6
      = true ∧
    statusIs (exec (.wrStatus 0x02)
      (blk fun b => { b with status := { b.status with done := true, success := true } })) 0x4 = true := by
  decide

/-! ### Register writes, idle and BUSY (section 4.2) -/

theorem test_wrFid_masks :
    nextIs (exec (.wrFid 0xFFFFFFFF) base) (fun t => t.block.fidWord == 0x3F && t.block.pidWord == 0xBF) = true := by
  decide
theorem test_wrLen_stores_nine :
    nextIs (exec (.wrLen 0xFFFFFFF9) base) (fun t => t.block.lenWord == 9) = true := by decide
theorem test_wrBaud_drives_baudOut :
    nextIs (exec (.wrBaud 9600) base) (fun t => t.block.baudWord == 9600 && t.block.baudOut == 9600) = true := by
  decide
theorem test_wrData_each_its_own :
    nextIs (exec (.wrData0 0x111) base) (fun t => t.block.data == ⟨0x11, 0, 0, 0, 0, 0, 0, 0⟩) = true ∧
    nextIs (exec (.wrData3 0x22) base) (fun t => t.block.data == ⟨0, 0, 0, 0x22, 0, 0, 0, 0⟩) = true ∧
    nextIs (exec (.wrData7 0x33) base) (fun t => t.block.data == ⟨0, 0, 0, 0, 0, 0, 0, 0x33⟩) = true := by
  decide
theorem test_busy_writes_are_lost :
    nextIs (exec (.wrFid 0x3D) (inState .brkFlush1 .brk)) (fun t => t.block.fidWord == 0) = true ∧
    nextIs (exec (.wrCtrl 0x4) (inState .brkFlush1 .brk)) (fun t => t.block.ctrlWord == 5) = true ∧
    nextIs (exec (.wrBaud 9600) (inState .brkFlush1 .brk)) (fun t => t.block.baudOut == 19200) = true := by
  decide
theorem test_wrPid_wrCks_ignored :
    exec (.wrPid 0xFF) base = .next base ∧ exec (.wrCks 0xFF) base = .next base := ⟨rfl, rfl⟩

/-! ### Reads (R29, R63) -/

theorem test_rdStatus_layout :
    readIs (exec .rdStatus (blk fun b =>
      { b with f := { b.f with state := .rxFlushing }, r := { b.r with state := .frameComplete, count := 8 } }))
      0xD8501 = true := by
  decide
theorem test_rdCtrl_layout :
    readIs (exec .rdCtrl (blk fun b => { b with ctrl := ⟨false, true, true⟩ })) 0x6 = true := by decide
theorem test_rdData7 :
    readIs (exec .rdData7 (blk fun b => { b with data := s2Bytes })) 0x56 = true := by decide

/-! ### The sequencer, one step each -/

/-- Vector B3: the half rate of 19201 is 9600. -/
theorem test_break_half_rate :
    nextIs (seqStep ((inState .brkFlush1 .brk).mapBlock fun b => { b with baud := 19201 }))
      (fun t => t.block.baudOut == 9600 && t.block.f.state == .brkSend) = true := by decide
/-- Vector B2: the wake delay across the wrap, elapsed 99 and 100. -/
theorem test_wake_delay_wraps :
    let s := (inState .wakeDelay .brk).mapBlock fun b => { b with f := { b.f with t0 := 0xFFFFFFC0 } }
    statusIs (seqStep (atTime s 0x23)) 0xB0001 = true ∧ statusIs (seqStep (atTime s 0x24)) 0x6 = true := by
  decide
/-- Vectors W5 and W6: the drain count. -/
theorem test_drain_count :
    [0, 3, 8].map (fun n => nextIs (seqStep ((inState .txFlush .write).mapBlock fun b =>
      { b with len := n, ctrl := ⟨false, true, false⟩ }))
      fun t => t.block.f.state == .drain && t.block.f.k == (if n = 0 then 3 else n + 4)) = [true, true, true] := by
  decide
/-- Vector W11: with VERIFY and DRAIN both 1 the write verifies. -/
theorem test_verify_wins :
    nextIs (seqStep ((inState .txFlush .write).mapBlock fun b => { b with ctrl := ⟨true, true, false⟩ }))
      (fun t => t.block.f.state == .rxPoll) = true := by decide
/-- A reader about to take its checksum, in RX_POLL for a read. -/
def awaitingCks : State :=
  withFifo ((inState .rxPoll .read).mapBlock fun b =>
    { b with r := { started 0x3D 8 with state := .waitForChecksum, count := 8, buf := s2Bytes } }) [0xE1]
/-- Vectors TM2 and TM3: the byte is taken at elapsed 49, and the deadline comes first at 50. -/
theorem test_poll_deadline :
    nextIs (seqStep (atTime awaitingCks 49))
      (fun t => t.block.r.state == .frameComplete && t.uart.rxFifo == []) = true ∧
    nextIs (seqStep (atTime awaitingCks 50))
      (fun t => t.block.status.timeout && t.block.f.state == .failDelay && t.uart.rxFifo == [0xE1]) = true := by
  decide
/-- Vector RD1, its last step. -/
theorem test_read_completes :
    nextIs (seqStep (awaitingCks.mapBlock fun b => { b with r := { b.r with state := .frameComplete } }))
      (fun t => t.block.statusWord == 0x8506 && t.block.data == s2Bytes) = true := by decide
/-- Vector W7, its last step: the echo `FF 01` of the data `00 01` fails the comparison alone. -/
theorem test_verify_compares :
    statusIs (seqStep ((inState .rxPoll .write).mapBlock fun b =>
      { b with
        len := 2, data := ⟨0x00, 0x01, 0, 0, 0, 0, 0, 0⟩
        r := { started 0x3C 2 with
          state := .frameComplete, count := 2, buf := ⟨0xFF, 0x01, 0, 0, 0, 0, 0, 0⟩ } })) 0x2522 = true := by
  decide
/-- Vector W9, its last step. -/
theorem test_verify_timeout :
    statusIs (seqStep (atTime (inState .rxPoll .write) 50)) 0x2A = true := by decide
/-- Vectors TM3 and TM6: T_FAIL_DELAY_MS is 10, elapsed 9 and 10. -/
theorem test_fail_delay :
    statusIs (seqStep (atTime (inState .failDelay .read) 9)) 0xC0001 = true ∧
    statusIs (seqStep (atTime (inState .failDelay .read) 10)) 0x2 = true := by decide
/-- Vectors F1 and F2. -/
theorem test_flush :
    statusIs (seqStep (withFifo (inState .rxFlushing .flush) [1])) 0xD0001 = true ∧
    statusIs (seqStep (inState .rxFlushing .flush)) 0x6 = true := by decide
/-- R213 at the last data byte, and R214: the checksum of S1-like data follows. -/
theorem test_last_data_then_cks :
    nextIs (seqStep ((inState .txData .write).mapBlock fun b =>
      { b with data := s2Bytes, f := { b.f with idx := 7 } }))
      (fun t => t.block.f.state == .txCks && t.pushedBytes == [0x56]) = true ∧
    nextIs (seqStep ((inState .txCks .write).mapBlock fun b => { b with fid := 0x3D, data := s2Bytes }))
      (fun t => t.block.f.state == .txFlush && t.pushedBytes == [0xE1]) = true := by
  decide

/-! ### Interrupt, reset, UART (sections 5, R290, R291) -/

theorem test_irq_at_finish :
    nextIs (seqStep ((inState .rxFlushing .flush).mapBlock fun b => { b with ctrl := ⟨true, false, true⟩ }))
      (fun t => t.block.irq) = true := by decide
theorem test_rst_read_returns_reset_value :
    readIs (step (withScript (inReset (blk fun b => { b with fid := 0x3D })) [.host .w32 (.bus 0x10 0)])) 0x80
      = true := by decide
theorem test_rst_write_has_no_effect :
    nextIs (step (withScript (inReset base) [.host .w32 (.bus 0x4C 0x3D)])) (fun t => t.block.fid == 0) = true := by
  decide
/-- R291: reset during the half-rate break marks the character under way. -/
theorem test_rst_disturbs_break :
    nextIs (step (withScript (sending (blk fun b => { b with baudOut := 9600 })) [.rst true]))
      (fun t => t.uart.txActive == some ⟨0x00, 9600, true⟩ && t.uart.txQueue == [⟨0x55, 9600, true⟩] &&
        t.block.baudOut == 19200) = true := by decide
theorem test_busError_narrow_and_misaligned :
    (match step (withScript base [.host .w8 (.bus 0x48 0)]) with
      | .fault f => f == .busError 0x08
      | _ => false) = true ∧
    (match step (withScript base [.host .w32 (.bus 0x0A 0)]) with
      | .fault f => f == .busError 0x0A
      | _ => false) = true := by
  decide
theorem test_platform_address :
    nextIs (step (withScript base [.hostAt .w32 true 0x100C 0x3D])) (fun t => t.block.fid == 0x3D) = true ∧
    (match step (withScript base [.hostAt .w32 false 0x1040 0]) with
      | .refused r => r == .outsideWindow 0x1040
      | _ => false) = true := by
  decide
/-- R40: at a FIFO of depth 2 the kept bytes are a subsequence that fits. -/
theorem test_overflow :
    [[], [true], [false, true], [true, true]].map
      (fun m => (({ base.uart with rxFifo := [1, 2] } : Uart).arrive 2 3 ⟨m⟩).rxFifo) =
      [[1, 2], [2, 3], [1, 3], [3]] := by
  decide

/-- R72: a pushed byte is received before a byte that starts on the bus later, and after one that started
before. -/
theorem test_echo_order :
    let s := withQueue (withBus base [0x01]) [⟨0x02, 19200, false⟩]
    nextIs (runSteps 5 (withScript s [.txStart, .busStart 0x03, arriveIntact, arriveIntact, arriveIntact]))
      (fun t => t.uart.rxFifo == [0x01, 0x02, 0x03]) = true := by decide
/-- R72 with ECHO false: the pushed byte is not received. -/
theorem test_no_echo :
    let s := withQueue { base with params := { base.params with echo := false } } [⟨0x02, 19200, false⟩]
    nextIs (runSteps 2 (withScript s [.txStart, arriveIntact]))
      (fun t => t.uart.rxFifo == [] && t.uart.txActive.isSome) = true := by decide
/-- R143: dominant for nine bits and recessive for one at the half rate; a disturbed character is left open
(R291). -/
theorem test_break_on_line :
    (sending base).uart.onLine = .bits (List.replicate 9 .dominant ++ [.recessive]) 9600 ∧
    base.uart.onLine = .steady .recessive ∧
    nextIs (step (withScript (sending (blk fun b => { b with baudOut := 9600 })) [.rst true]))
      (fun t => t.uart.onLine == .drawn) = true := by decide
/-- R300: the cycle of moves begins again, and the flush that emptied the FIFO is BUSY. -/
theorem test_flush_hangs :
    let s := { inState .rxFlushing .flush with forever := [.busStart 7, arriveIntact, .sequencer] }
    nextIs (runSteps 6 s) (fun t => t.block.busy && t.uart.rxFifo == [] && t.pending == s.forever) = true := by
  decide
/-- R301: with `tx_ready` at 0 for ever the push is never taken. -/
theorem test_push_hangs :
    nextIs (runSteps 5 (notReady (inState .brkSend .brk))) (fun t => t.block.f.state == .brkSend) = true := by
  decide

/-! ### Witnesses: for every statement with hypotheses, values that meet them, clause by clause -/

theorem witness_DecodeInvertsEncode :
    (Instr.wrData7 0xFFFFFFFF).wellFormed = true ∧ (Instr.reservedF 0xFFFFFFF).wellFormed = true ∧
    decode (encode (.wrData7 0xFFFFFFFF)) = .ok (.wrData7 0xFFFFFFFF) ∧
    decode (encode (.reservedF 0xFFFFFFF)) = .ok (.reservedF 0xFFFFFFF) := by decide

theorem witness_EveryWordNamesOneInstruction :
    (0x00 : BitVec 7).toNat % 4 = 0 ∧ (0x7C : BitVec 7).toNat % 4 = 0 := by decide

theorem witness_StepRunsDecodedInstruction :
    let s := withScript base [.host .w32 (.bus 0x7C 5)]
    s.rst = false ∧ s.pending = [.host .w32 (.bus 0x7C 5)] ∧ decode (.bus 0x7C 5) = .ok (.wrData7 5) ∧
    (Instr.wrData7 5).wellFormed = true ∧ nextIs (step s) (fun t => t.block.data.b7 == 5) = true := by decide

theorem witness_StepRunsSequencerOrReset :
    (withScript base [.sequencer]).pending = [.sequencer] ∧ (withScript base [.sequencer]).rst = false ∧
    base.pending = [] ∧ base.rst = false ∧ (inReset base).pending = [] ∧ (inReset base).rst = true := by decide

theorem witness_UndefinedAccessIsBusError :
    (withScript base [.host .w8 (.bus 0x08 0)]).pending = [.host .w8 (.bus 0x08 0)] ∧
    (withScript base [.host .w32 (.bus 0x7F 0)]).pending = [.host .w32 (.bus 0x7F 0)] ∧
    (AccessWidth.w8 ≠ .w32) ∧ (0x7F : BitVec 7).toNat % 4 ≠ 0 ∧ (0x7C : BitVec 7).toNat % 4 = 0 := by decide

theorem witness_EveryPathToTheWindowActsAlike :
    (withScript base [.host .w64 (.cmd 1)]).pending = [.host .w64 (.cmd 1)] ∧
    (withScript base [.hostAt .w32 true 0x103F 0]).pending = [.hostAt .w32 true 0x103F 0] ∧
    ((0x103F : Word) - base.params.linBase).toNat < 64 ∧ ((0x103F : Word) - base.params.linBase).toNat % 4 ≠ 0 ∧
    ((0x103C : Word) - base.params.linBase).toNat < 64 ∧ ((0x103C : Word) - base.params.linBase).toNat % 4 = 0 ∧
    (0x7C : BitVec 7).toNat = ((0x103C : Word) - base.params.linBase).toNat + (if true then 64 else 0) ∧
    (0x00 : BitVec 7).toNat = ((0x1000 : Word) - base.params.linBase).toNat + (if false then 64 else 0) ∧
    decode (.bus 0x7C 5) = .ok (.wrData7 5) ∧
    (withScript base [.host .w32 (.cmd 1)]).pending = [.host .w32 (.cmd 1)] ∧
    nextIs (step (withScript base [.host .w32 (.cmd 1)])) (fun t => t.block.busy) = true ∧
    64 ≤ ((0x1040 : Word) - base.params.linBase).toNat ∧ 64 ≤ ((0x0FFF : Word) - base.params.linBase).toNat ∧
    nextIs (step (withScript base [.hostAt .w32 true 0x103C 5])) (fun t => t.block.data.b7 == 5) = true := by
  decide

theorem witness_AlignedAccessCompletes :
    (withScript (inReset base) [.host .w32 (.bus 0x3C 0)]).pending = [.host .w32 (.bus 0x3C 0)] ∧
    (0x3C : BitVec 7).toNat % 4 = 0 ∧
    nextIs (step (withScript (inReset base) [.host .w32 (.bus 0x3C 0)])) (fun t => t.rst) = true := by decide

theorem witness_WritesWhileIdleSetTheirField : base.block.busy = false := by decide

theorem witness_WritesWhileBusyAreFrozen :
    (inState .rxPoll .read).block.busy = true ∧ (0x5 : Word).toNat % 16 ≠ 0 ∧
    nextIs (exec (.wrCmd 0x5) (inState .rxPoll .read)) (fun t => t.block.status.cmdErr) = true := by decide

theorem witness_CmdWriteDecidesByOpcode :
    (0xFFFFFFF0 : Word).toNat % 16 = 0 ∧ (0x1 : Word).toNat % 16 ≠ 0 ∧
    (inState .drain .write).block.busy = true ∧ 5 ≤ (0x5 : Word).toNat % 16 ∧ 5 ≤ (0xF : Word).toNat % 16 ∧
    base.block.busy = false ∧ (0x14 : Word).toNat % 16 = 4 ∧ (0x1 : Word).toNat % 16 = 1 ∧
    (0x2 : Word).toNat % 16 = 2 ∧ (0x3 : Word).toNat % 16 = 3 := by decide

theorem witness_AcceptedCommandsStart :
    let s := blk fun b => { b with baud := 2 }
    s.block.busy = false ∧ s.block.len.toNat ≤ 8 ∧ 2 ≤ s.block.baud.toNat ∧
    statusIs (exec (.writeFrame 0) s) 0x10001 = true ∧ statusIs (exec (.rxFlush 0) s) 0xD0001 = true := by decide

theorem witness_IllegalOperandsFailAtAcceptance :
    (blk fun b => { b with len := 9 }).block.busy = false ∧ 8 < (blk fun b => { b with len := 9 }).block.len.toNat ∧
    (blk fun b => { b with baud := 1 }).block.baud.toNat < 2 := by decide

theorem witness_PidLayout : (5 : Nat) < 6 ∧ (pid (0x3F : Word)).getLsbD 5 = true := by decide

theorem witness_PidIsInjectiveAndNeverZero : pid (0x15 : FrameId) = pid (0x15 : FrameId) := rfl

theorem witness_ChecksumIsModulo255 :
    (0x00 : Byte).toNat + (([] : List Byte).map BitVec.toNat).sum = 0 ∧
    0 < (0xFF : Byte).toNat + ([0x01].map (BitVec.toNat : Byte → Nat)).sum ∧
    (0xFF : Byte).toNat + ([0x01].map (BitVec.toNat : Byte → Nat)).sum + 255 < 2 ^ 16 := by decide

theorem witness_FrameChecksumDispatch :
    0x3C ≤ (0x3C : Word).toNat % 64 ∧ (0x3B : Word).toNat % 64 < 0x3C ∧ (0x44 : Word).toNat % 64 < 0x3C := by decide

theorem witness_BreakGeneratorSteps :
    (inState .brkFlush1 .write).block.f.state = .brkFlush1 ∧ (inState .brkFlush1 .write).txEmpty = true ∧
    (sending (inState .brkFlush1 .write)).txEmpty = false ∧
    (inState .brkSend .write).uart.txReady = true ∧ (notReady (inState .brkSend .write)).uart.txReady = false ∧
    (inState .brkFlush2 .brk).block.f.op = .brk ∧ (inState .brkFlush2 .read).block.f.op ≠ .brk ∧
    (inState .brkFlush2 .read).txEmpty = true := by decide

theorem witness_HeaderSteps :
    (inState .txSync .read).block.f.state = .txSync ∧ (inState .txSync .read).uart.txReady = true ∧
    (notReady (inState .txPid .read)).uart.txReady = false ∧
    (inState .txPid .read).block.f.op = .read ∧ (inState .txPid .write).block.f.op ≠ .read ∧
    (inState .txPid .write).block.len ≠ 0 ∧
    ((inState .txPid .write).mapBlock fun b => { b with len := 0 }).block.len = 0 := by decide

theorem witness_DataAndChecksumSteps :
    let s := (inState .txData .write).mapBlock fun b => { b with f := { b.f with idx := 7 } }
    s.block.len.toNat ≤ 8 ∧ s.block.f.state = .txData ∧ s.block.f.idx.toNat < s.block.len.toNat ∧
    s.uart.txReady = true ∧ (notReady s).uart.txReady = false ∧
    (inState .txCks .write).block.f.state = .txCks ∧ (inState .txCks .write).block.len ≠ 0 := by decide

theorem witness_FlushThenVerifyDrainOrFinish :
    let s := inState .txFlush .write
    s.block.f.state = .txFlush ∧ s.block.len.toNat ≤ 8 ∧ s.txEmpty = true ∧ (sending s).txEmpty = false ∧
    s.block.ctrl.verify = true ∧
    (s.mapBlock fun b => { b with ctrl := ⟨false, true, false⟩ }).block.ctrl.drain = true ∧
    (s.mapBlock fun b => { b with ctrl := ⟨false, false, false⟩ }).block.ctrl.verify = false := by decide

theorem witness_RxPollTestsInOrder :
    awaitingCks.block.f.state = .rxPoll ∧ awaitingCks.block.r.complete = false ∧
    (atTime awaitingCks 49).nowMs - (atTime awaitingCks 49).block.f.t0 = 49 ∧
    50 ≤ ((atTime awaitingCks 50).nowMs - (atTime awaitingCks 50).block.f.t0).toNat ∧
    awaitingCks.uart.rxFifo = [0xE1] ∧ (awaitingCks.block.r.processByte 0xE1).isSome = true ∧
    (withFifo awaitingCks []).uart.rxFifo = [] ∧
    (awaitingCks.mapBlock fun b => { b with r := { b.r with state := .frameComplete } }).block.r.complete = true := by
  decide

theorem witness_PollOutcomes :
    awaitingCks.block.r.len.toNat ≤ 8 ∧ awaitingCks.block.f.op = .read ∧
    (inState .rxPoll .write).block.f.op ≠ .read ∧ (inState .rxPoll .write).block.r.len.toNat ≤ 8 ∧
    (∀ i < (2 : Nat), s2Bytes.toList[i]? = s2Bytes.toList[i]?) ∧
    ¬ (∀ i < (2 : Nat), s2Bytes.toList[i]? = Bytes8.zero.toList[i]?) := by decide

theorem witness_DrainFlushAndDelaySteps :
    let s := (inState .drain .write).mapBlock fun b => { b with f := { b.f with k := 1 } }
    s.block.f.state = .drain ∧ s.block.f.k ≠ 0 ∧ ((atTime s 49).nowMs - s.block.f.t0).toNat < 50 ∧
    50 ≤ ((atTime s 50).nowMs - s.block.f.t0).toNat ∧ (inState .drain .write).block.f.k = 0 ∧
    (withFifo s [7]).uart.rxFifo = [7] ∧ s.uart.rxFifo = [] ∧
    (inState .wakeDelay .brk).params.tWakeMs.toNat ≤ ((100 : Word) - s.block.f.t0).toNat ∧
    ((99 : Word) - s.block.f.t0).toNat < (inState .wakeDelay .brk).params.tWakeMs.toNat ∧
    (inState .failDelay .read).params.tFailDelayMs.toNat ≤ ((10 : Word) - s.block.f.t0).toNat ∧
    ((9 : Word) - s.block.f.t0).toNat < (inState .failDelay .read).params.tFailDelayMs.toNat := by decide

theorem witness_ReaderFollowsTheTable :
    (started 0x3D 8).state = .waitForBreak ∧ (0x55 : Byte) ≠ 0x00 ∧
    ({ started 0x3D 8 with state := .waitForPid } : Reader).pid = 0x7D ∧
    frameCks awaitingCks.block.r.fid (awaitingCks.block.r.buf.toList.take awaitingCks.block.r.len.toNat) = 0xE1 ∧
    ({ started 0x3D 0 with state := .waitForData } : Reader).complete = true ∧
    (seqStep base matches .next _) ∧ base.block.f.state = .idle := by decide

theorem witness_ReaderAppendsData :
    let r : Reader := { started 0x3D 8 with state := .waitForData, count := 7 }
    r.state = .waitForData ∧ r.len.toNat ≤ 8 ∧ r.count.toNat < r.len.toNat := by decide

theorem witness_NoiseThenFrameCompletes :
    s2.length ≤ 8 ∧ (∀ x ∈ ([0x55, 0x7D, 0xFF, 0x12] : List Byte), x ≠ 0x00) ∧ ([] : List Byte).length ≤ 8 := by
  decide

theorem witness_StaleZerosParity : (0 : Nat) % 2 = 0 ∧ (1 : Nat) % 2 = 1 := by decide

theorem witness_IrqFollowsDoneAndEnable :
    base.block.Accepts .write ∧ (0x02 : Word).getLsbD 1 = true := by
  refine ⟨⟨?_, ?_, ?_⟩, ?_⟩ <;> decide

theorem witness_FinishSetsOutcomeOnly : base.block.f.state = .idle := by decide

/-- The state after reset meets the block's invariant, whatever the parameters. -/
theorem initial_block_inv : Block.initial.Inv where
  op := by decide
  operands := fun h => absurd rfl h
  counters := ⟨nofun, nofun, nofun⟩
  rate := by unfold Block.RateLegal; decide
  reader := ⟨by decide, by decide, rfl⟩
  started := nofun
  outcome := ⟨fun h => absurd rfl h, nofun⟩

/-- A busy state that meets the invariant: SEND_BREAK's first state. -/
theorem busy_inv : (inState .brkFlush1 .brk).Inv where
  block :=
    { op := by decide
      operands := fun _ => ⟨nofun, fun _ => by decide⟩
      counters := ⟨nofun, nofun, nofun⟩
      rate := by unfold Block.RateLegal; decide
      reader := ⟨by decide, by decide, rfl⟩
      started := nofun
      outcome := ⟨fun _ => ⟨rfl, rfl, rfl, rfl, rfl, fun _ => rfl⟩, nofun⟩ }
  uart := Nat.zero_le _
  params := ⟨by decide, by decide⟩

/-- An idle state that meets the invariant. -/
theorem base_inv : base.Inv := ⟨initial_block_inv, Nat.zero_le _, ⟨by decide, by decide⟩⟩

/-- A state of RX_FLUSHING that meets the invariant: its next step ends the transaction. -/
theorem flushing_inv : (inState .rxFlushing .flush).Inv where
  block :=
    { op := by decide
      operands := fun _ => ⟨nofun, nofun⟩
      counters := ⟨nofun, nofun, nofun⟩
      rate := by unfold Block.RateLegal; decide
      reader := ⟨by decide, by decide, rfl⟩
      started := nofun
      outcome := ⟨fun _ => ⟨rfl, rfl, rfl, rfl, rfl, fun _ => rfl⟩, nofun⟩ }
  uart := Nat.zero_le _
  params := ⟨by decide, by decide⟩

theorem witness_TransactionEndsByFinishOrReset :
    (inState .rxFlushing .flush).Inv ∧ (inState .rxFlushing .flush).block.busy = true ∧
    nextIs (step (inState .rxFlushing .flush)) (fun t => !t.block.busy) = true ∧
    nextIs (step (inReset (inState .rxFlushing .flush))) (fun t => !t.block.busy) = true ∧
    nextIs (step (inState .brkFlush1 .brk)) (fun t => t.block.busy) = true :=
  ⟨flushing_inv, by decide, by decide, by decide, by decide⟩

theorem witness_OnlyCmdWriteLeavesIdle :
    base.block.busy = false ∧
    nextIs (step (withScript base [.host .w32 (.cmd 1)])) (fun t => t.block.busy) = true := by decide

theorem witness_CmdErrStaysUntilCleared :
    let s := blk fun b => { b with status := { b.status with cmdErr := true } }
    s.block.status.cmdErr = true ∧
    nextIs (step (withScript s [.host .w32 (.bus 0x48 0x80)])) (fun t => !t.block.status.cmdErr) = true := by
  decide

theorem witness_DataChangesOnlyByWriteReadOrReset :
    nextIs (step (withScript base [.host .w32 (.bus 0x7C 5)])) (fun t => t.block.data != base.block.data) = true ∧
    nextIs (step (awaitingCks.mapBlock fun b => { b with r := { b.r with state := .frameComplete } }))
      (fun t => t.block.data != awaitingCks.block.data) = true := by decide

theorem witness_SequencerChangesRateOnlyWhenEmpty :
    nextIs (seqStep (inState .brkFlush1 .brk)) (fun t => t.block.baudOut != base.block.baudOut) = true ∧
    nextIs (seqStep (inState .brkSend .brk)) (fun t => t.uart.txQueue != []) = true := by decide

theorem witness_StepMovesOneByteInOrder :
    nextIs (step (inState .txSync .read)) (fun t => t.pushedBytes == [0x55]) = true ∧
    nextIs (seqStep (withFifo (inState .rxFlushing .flush) [1, 2])) (fun t => t.uart.rxFifo == [2]) = true := by
  decide

theorem witness_FlushEndsWhenTheFifoIsEmpty :
    (withFifo (inState .rxFlushing .flush) [1]).rst = false ∧
    (withFifo (inState .rxFlushing .flush) [1]).block.f.state = .rxFlushing := by decide

theorem witness_FlushNeverEndsWhileBytesKeepComing :
    let s := { inState .rxFlushing .flush with
      params := { base.params with rxDepth := 1 }, forever := [.busStart 0x00, arriveIntact, .sequencer] }
    s.rst = false ∧ s.block.f.state = .rxFlushing ∧ 1 ≤ s.params.rxDepth ∧ s.script = [] ∧
    s.forever = [.busStart 0x00, arriveIntact, .sequencer] ∧
    nextIs (runSteps 7 s) (fun t => t.block.busy) = true := by decide

theorem witness_EnvironmentMovesLeaveTheBlock :
    base.rst = false ∧ (withScript base [.clock 0xFFFFFFFF]).pending = [.clock 0xFFFFFFFF] ∧
    nextIs (step (withScript (atTime base 1) [.clock 0xFFFFFFFF])) (fun t => t.nowMs == 0) = true ∧
    (withScript base [.txReady false]).pending = [.txReady false] ∧
    (withScript base [.txStart]).pending = [.txStart] ∧
    base.uart.txActive = none ∧ base.uart.txQueue = [] ∧ base.params.echo = true ∧
    (withQueue base [⟨0x55, 19200, false⟩]).uart.txQueue = [⟨0x55, 19200, false⟩] ∧
    ({ base.params with echo := false } : Params).echo = false ∧
    (sending base).uart.txActive ≠ none ∧ (sending base).uart.txActive = some ⟨0x00, 9600, false⟩ ∧
    (withScript (sending base) [.txDone]).pending = [.txDone] ∧
    nextIs (step (withScript (sending base) [.txDone])) (fun t => t.uart.line == [⟨0x00, 9600, false⟩]) = true ∧
    (withScript base [.busStart 1]).pending = [.busStart 1] ∧
    (withScript base [.rxArrive .lost ⟨[]⟩]).pending = [.rxArrive .lost ⟨[]⟩] ∧ (withBus base [7]).uart.onBus = 7 :: [] ∧
    (withFifo base (List.replicate 16 0x01)).uart.rxFifo.length = base.params.rxDepth ∧
    (withScript (inReset base) [.rst false]).pending = [.rst false] ∧
    nextIs (step (withScript (inReset base) [.rst false])) (fun t => !t.rst) = true := by decide

theorem witness_StepKeepsInvariant :
    base.Inv ∧ (inState .brkFlush1 .brk).Inv ∧
    nextIs (step (inState .brkFlush1 .brk)) (fun t => t.block.f.state == .brkSend) = true :=
  ⟨base_inv, busy_inv, by decide⟩

/-- The same block with other values in fields nothing reads in IDLE. -/
def otherUnread : State := blk fun b => { b with f := { b.f with op := .flush, idx := 5, t0 := 77 } }

theorem otherUnread_inv : otherUnread.Inv :=
  ⟨{ op := by decide
     operands := fun h => absurd rfl h
     counters := ⟨nofun, nofun, nofun⟩
     rate := by unfold Block.RateLegal; decide
     reader := ⟨by decide, by decide, rfl⟩
     started := nofun
     outcome := ⟨fun h => absurd rfl h, nofun⟩ }, Nat.zero_le _, ⟨by decide, by decide⟩⟩

theorem witness_UnwrittenFieldsAreUnobservable :
    base.Inv ∧ otherUnread.Inv ∧ base.visible = otherUnread.visible ∧ base ≠ otherUnread :=
  ⟨base_inv, otherUnread_inv, by decide, by decide⟩

theorem witness_InvariantExcludesModelStops :
    base.Inv ∧ (withScript base [.host .w8 (.bus 0x08 0)]).Inv ∧ (withScript base [.hostAt .w32 true 0xFFC 0]).Inv :=
  ⟨base_inv, ⟨base_inv.block, base_inv.uart, base_inv.params⟩, ⟨base_inv.block, base_inv.uart, base_inv.params⟩⟩

theorem witness_ResetStepValues :
    State.reset.block = State.reset.block ∧
    (State.resetStep (inState .rxPoll .read)).block.statusWord = 0 ∧
    (State.resetStep (inState .rxPoll .read)).block.cksWord = 0x7F := by decide

theorem witness_ResetOverridesEveryMove :
    (inReset base).rst = true ∧
    nextIs (step (inReset base)) (fun t => t.rst) = true ∧
    (withScript (inReset base) [.host .w32 (.bus 0x18 0)]).pending = [.host .w32 (.bus 0x18 0)] ∧
    decode (.bus 0x18 0) = .ok .rdCks ∧ decode (.bus 0x3C 0) = .ok .rdData7 ∧
    readIs (step (withScript (inReset base) [.host .w32 (.bus 0x3C 0)])) 0 = true ∧
    (withScript (inReset base) [.hostAt .w32 false 0x1018 0]).pending = [.hostAt .w32 false 0x1018 0] ∧
    ((0x103C : Word) - base.params.linBase).toNat < 64 ∧ ((0x103C : Word) - base.params.linBase).toNat % 4 = 0 ∧
    readIs (step (withScript (inReset base) [.hostAt .w32 false 0x1018 0])) 0x7F = true ∧
    nextIs (step (withScript (inReset base) [.hostAt .w32 true 0x103C 5])) (fun t => t.rdata == none) = true ∧
    (withScript (inReset base) [.sequencer]).pending = [.sequencer] ∧
    (withScript (inReset base) [.rst true]).pending = [.rst true] ∧
    (withScript (inReset base) [.clock 0xFFFFFFFF]).pending = [.clock 0xFFFFFFFF] ∧
    nextIs (step (withScript (atTime (inReset base) 1) [.clock 0xFFFFFFFF])) (fun t => t.nowMs == 0) = true ∧
    (withScript (inReset (sending base)) [.txDone]).pending = [.txDone] ∧
    (sending (blk fun b => { b with baudOut := 9600 })).block.baudOut ≠ 19200 ∧
    nextIs (step (withScript (inReset (sending (blk fun b => { b with baudOut := 9600 }))) [.txDone]))
      (fun t => t.uart.line == [⟨0x00, 9600, false⟩] && t.uart.txQueue == [⟨0x55, 9600, true⟩]) = true ∧
    nextIs (step (withScript (inReset (withBus base [7])) [arriveIntact])) (fun t => t.uart.rxFifo == [7]) = true :=
  by decide

/-- The moves that are the UART's or another node's. -/
theorem witness_OfUart :
    (Event.txReady false).OfUart ∧ Event.txStart.OfUart ∧ Event.txDone.OfUart ∧ (Event.busStart 0xFF).OfUart ∧
    arriveIntact.OfUart ∧ ¬ Event.sequencer.OfUart := ⟨trivial, trivial, trivial, trivial, trivial, nofun⟩

theorem witness_RaisingResetAbandonsTransaction :
    (withScript (sending (inState .brkFlush2 .brk)) [.rst true]).pending = [.rst true] ∧
    (inState .brkFlush2 .brk).block.baudOut = 19200 ∧
    ((inState .brkFlush2 .brk).mapBlock fun b => { b with baudOut := 9600 }).block.baudOut ≠ 19200 := by decide

theorem witness_ReceiveFifoKeepsArrivalOrder :
    base.rst = false ∧ (withScript base [arriveIntact]).pending = [.rxArrive .intact ⟨[]⟩] ∧
    base.uart.onBus = [] ∧ (withBus base [0x55]).uart.onBus = 0x55 :: [] ∧
    (withScript base [.rxArrive .lost ⟨[]⟩]).pending = [.rxArrive .lost ⟨[]⟩] ∧
    (withScript base [.rxArrive (.damaged 7) ⟨[]⟩]).pending = [.rxArrive (.damaged 7) ⟨[]⟩] ∧
    base.uart.rxFifo.length < base.params.rxDepth ∧
    base.params.rxDepth ≤ (withFifo base (List.replicate 16 0x01)).uart.rxFifo.length ∧
    [0x02].length ≤ base.params.rxDepth ∧
    ([0x02] : List Byte).Sublist ((withFifo base (List.replicate 16 0x01)).uart.rxFifo ++ [0x02]) ∧
    base.params.echo = true ∧ base.uart.txActive = none ∧
    (withQueue base [⟨0x55, 19200, false⟩]).uart.txQueue = ⟨0x55, 19200, false⟩ :: [] ∧
    0 + 1 + 1 + [0x02].length ≤ base.params.rxDepth := by decide

theorem witness_ElapsedTimeIsModular :
    let s := atTime ((withScript (inState .wakeDelay .brk) [.sequencer]).mapBlock fun b =>
      { b with f := { b.f with t0 := 0xFFFFFFC0 } }) 0x24
    s.rst = false ∧ s.pending = [.sequencer] ∧ s.block.f.state = .wakeDelay ∧ (100 : Nat) < 2 ^ 32 ∧
    s.nowMs = BitVec.ofNat 32 (s.block.f.t0.toNat + 100) := by decide

theorem witness_WriteFrameSendsTheFrame :
    let s := blk fun b => { b with ctrl := ⟨false, false, false⟩, len := 0 }
    s.rst = false ∧ s.block.Accepts .write ∧ s.uart.txReady = true ∧ s.uart.txQueue = [] ∧
    s.uart.txActive = none ∧ s.block.ctrl.verify = false ∧ s.block.ctrl.drain = false := by
  refine ⟨rfl, ⟨?_, ?_, ?_⟩, rfl, rfl, rfl, rfl, rfl⟩ <;> decide

theorem witness_ReadFrameDeliversTheResponse :
    base.rst = false ∧ base.block.Accepts .read ∧ base.uart.txReady = true ∧ base.uart.txQueue = [] ∧
    base.uart.txActive = none ∧ base.params.echo = true ∧ base.uart.onBus = [] ∧ base.uart.rxFifo = [] ∧ 12 ≤ base.params.rxDepth ∧
    s2.length = base.block.len.toNat := by
  refine ⟨rfl, ⟨?_, ?_, ?_⟩, rfl, rfl, rfl, rfl, rfl, rfl, ?_, rfl⟩ <;> decide

theorem witness_SendBreakHoldsTheQuietTime :
    base.rst = false ∧ base.block.Accepts .brk ∧ base.uart.txReady = true ∧ base.uart.txQueue = [] ∧
    base.uart.txActive = none ∧ base.params.Legal ∧ base.params.tWakeMs.toNat ≤ (100 : Word).toNat ∧
    (99 : Word).toNat < base.params.tWakeMs.toNat := by
  refine ⟨rfl, ⟨?_, ?_, ?_⟩, rfl, rfl, rfl, ⟨?_, ?_⟩, ?_, ?_⟩ <;> decide

theorem witness_BreakIsEighteenNominalBits :
    2 ≤ (2 : Word).toNat ∧ (2 : Word).toNat % 2 = 0 ∧
    (sending base).uart.txActive = some ⟨0x00, 9600, false⟩ ∧ (withScript (sending base) [.txDone]).nextMove = .txDone ∧
    nextIs (step (withScript (sending base) [.txDone])) (fun t => t.uart.onLine == .steady .recessive) = true ∧
    (inState .brkFlush2 .write).rst = false ∧ (inState .brkFlush2 .write).block.f.state = .brkFlush2 ∧
    (inState .brkFlush2 .write).block.f.op ≠ .brk ∧ (inState .brkFlush2 .write).uart.txActive = none ∧
    (inState .brkFlush2 .write).uart.txQueue = [] ∧
    nextIs (runSteps 0 (inState .brkFlush2 .write)) (fun u => u.nextMove == .sequencer) = true ∧
    nextIs (runSteps 1 (inState .brkFlush2 .write)) (fun u => u.nextMove == .sequencer) = true ∧
    nextIs (runSteps 2 (inState .brkFlush2 .write)) (fun t => t.uart.txQueue == [sentChar 19200 0x55]) = true := by
  decide

theorem witness_SlowRatesOverrunTheReadWindow :
    LongerThanMs (readWindowBitTimes 8) 2199 50 ∧ ¬ LongerThanMs (readWindowBitTimes 8) 2200 50 := by
  unfold LongerThanMs
  decide

end Sys2Proof.Tests
end

section
/-! PROOFS. Deadlines across the wrap of `now_ms` (00_scope.md R7, 60_exceptions.md R271, R272). -/

namespace Sys2Proof.Machine

/-- A sequencer move with `rst` at 0 is the sequencer's step. -/
theorem step_sequencer {s : State} {rest : List Event} (hr : s.rst = false)
    (hp : s.pending = .sequencer :: rest) : step s = seqStep { s with script := rest } := by
  rw [step_pending hp]
  exact blockMove_running hr

/-- The clock wraps at 2^32, and the elapsed time does not see it. -/
theorem elapsed_toNat_of_eq_add {now t0 : Word} {d : Nat} (hd : d < 2 ^ 32)
    (hn : now = BitVec.ofNat 32 (t0.toNat + d)) : (elapsed now t0).toNat = d := by
  have hnow : now = BitVec.ofNat 32 d + t0 := by
    rw [hn, BitVec.ofNat_add, BitVec.ofNat_toNat, BitVec.setWidth_eq, BitVec.add_comm]
  rw [elapsed, hnow, BitVec.add_sub_cancel, BitVec.toNat_ofNat, Nat.mod_eq_of_lt hd]

theorem State.deadline_eq_true_iff (s : State) (t : Word) :
    s.deadline t = true ↔ t.toNat ≤ (elapsed s.nowMs s.block.f.t0).toNat := by
  simp [State.deadline, BitVec.le_def]

/-- In WAKE_DELAY the sequencer finishes at the deadline (R147). -/
theorem seqStep_wakeDelay_expired {s : State} (hst : s.block.f.state = .wakeDelay)
    (h : s.deadline s.params.tWakeMs = true) : seqStep s = .next (s.mapBlock (Block.finish true)) := by
  simp [seqStep, hst, seqWakeDelay, h]

/-- Before the deadline WAKE_DELAY holds (R147). -/
theorem seqStep_wakeDelay_waiting {s : State} (hst : s.block.f.state = .wakeDelay)
    (h : ¬ s.deadline s.params.tWakeMs = true) : seqStep s = .next s := by
  simp [seqStep, hst, seqWakeDelay, h]

/-- Settles O53: the elapsed time is `d` whether or not the clock wraps, and the deadline compares just that. -/
theorem elapsedTimeIsModular : Obligations.ElapsedTimeIsModular := by
  intro s d rest hr hp hst hd hn
  have hdl : State.deadline { s with script := rest } s.params.tWakeMs = true ↔ s.params.tWakeMs.toNat ≤ d := by
    rw [State.deadline_eq_true_iff, elapsed_toNat_of_eq_add hd hn]
  rw [step_sequencer hr hp]
  by_cases hle : s.params.tWakeMs.toNat ≤ d
  · exact ⟨_, seqStep_wakeDelay_expired hst (hdl.mpr hle), iff_of_true rfl hle, fun _ => ⟨rfl, rfl⟩⟩
  · have hbusy : ({ s with script := rest } : State).block.busy = true := by
      simp [Block.busy_eq_true_iff, hst]
    refine ⟨_, seqStep_wakeDelay_waiting hst (mt hdl.mp hle), ?_⟩
    simp [hbusy, hle]

end Sys2Proof.Machine
end

section
/-! PROOFS. What one step of the machine can do, by the agent that moves (10_state.md R20). -/

namespace Sys2Proof.Machine

/-! ### The moves of the clock, of `rst`, of the UART and of the other nodes -/

/-- What a move that is neither the host's nor the sequencer's makes of the state, before any reset step. -/
def Event.change (e : Event) (s : State) : State :=
  match e with
  | .host _ _ => s
  | .hostAt _ _ _ _ => s
  | .sequencer => s
  | .rst level => { s with rst := level }
  | .clock ms => { s with nowMs := s.nowMs + ms }
  | .txReady level => s.mapUart fun u => { u with txReady := level }
  | .txStart => s.mapUart (Uart.startOne s.params.echo)
  | .txDone => s.mapUart Uart.sendOne
  | .busStart b => s.mapUart (Uart.busStart b)
  | .rxArrive draw overflow => s.mapUart (Uart.receiveOne s.params.rxDepth draw overflow)

@[simp] theorem Event.change_block (e : Event) (s : State) : (e.change s).block = s.block := by
  cases e <;> rfl

@[simp] theorem Event.change_params (e : Event) (s : State) : (e.change s).params = s.params := by
  cases e <;> rfl

/-- The host access `e`, with `rst` at 0, runs the instruction `i` (R60, R98). -/
def Event.Runs (p : Params) (i : Instr) : Event → Prop
  | .host width word => width = .w32 ∧ decode word = .ok i
  | .hostAt width write addr value =>
    width = .w32 ∧ addr - p.linBase < 64 ∧
      decode (.bus (mkTxn write ((addr - p.linBase).setWidth 6)) value) = .ok i
  | _ => False

/-! ### What each agent's move can do -/

/-- An access that completes is 32 bits wide and runs the instruction its word decodes to (R62). -/
theorem hostAccess_next {width : AccessWidth} {word : HostWord} {s t : State}
    (h : hostAccess width word s = .next t) :
    width = .w32 ∧ ∃ i, decode word = .ok i ∧ exec i s = .next t := by
  unfold hostAccess at h
  split at h
  · split at h
    · rename_i i hi
      exact ⟨rfl, i, hi, h⟩
    · simp at h
  all_goals simp at h

theorem keepRead_next {r t : State} {o : StepOutcome} (h : keepRead r o = .next t) :
    ∃ v, t = { r with rdata := v } := by
  cases o <;> simp [keepRead] at h
  exact ⟨_, h.symm⟩

/-- A host access resets the block while `rst` is 1, and else runs an instruction (R74, R290). -/
theorem hostMove_next {width : AccessWidth} {word : HostWord} {s t : State}
    (h : hostMove width word s = .next t) :
    (s.rst = true ∧ ∃ v, t = { s.resetStep with rdata := v }) ∨
    (s.rst = false ∧ width = .w32 ∧ ∃ i, decode word = .ok i ∧ exec i s = .next t) := by
  unfold hostMove at h
  split at h
  · rename_i hr
    exact .inl ⟨hr, keepRead_next h⟩
  · rename_i hr
    exact .inr ⟨by simpa using hr, hostAccess_next h⟩

theorem hostMoveAt_next {width : AccessWidth} {write : Bool} {addr value : Word} {s t : State}
    (h : hostMoveAt width write addr value s = .next t) :
    addr - s.params.linBase < 64 ∧
      hostMove width (.bus (mkTxn write ((addr - s.params.linBase).setWidth 6)) value) s = .next t := by
  unfold hostMoveAt at h
  dsimp only at h
  split at h
  · exact ⟨‹_›, h⟩
  · simp at h

/-- Every step is a reset step, an instruction of the host, a step of the sequencer, or a change around the block. -/
theorem step_cases {s t : State} (h : step s = .next t) :
    (t.rst = true ∧ ∃ v, t = { (s.nextMove.change s.takeMove).resetStep with rdata := v }) ∨
    (s.rst = false ∧ ∃ i, s.nextMove.Runs s.params i ∧ exec i s.takeMove = .next t) ∨
    (s.rst = false ∧ seqStep s.takeMove = .next t) ∨
    (t = s.nextMove.change s.takeMove) := by
  have hostCase : ∀ {width word}, hostMove width word s.takeMove = .next t →
      (t.rst = true ∧ ∃ v, t = { s.takeMove.resetStep with rdata := v }) ∨
      (s.rst = false ∧ width = .w32 ∧ ∃ i, decode word = .ok i ∧ exec i s.takeMove = .next t) := by
    intro width word hm
    obtain ⟨hr, v, rfl⟩ | hrun := hostMove_next hm
    exacts [.inl ⟨hr, v, rfl⟩, .inr hrun]
  have envCase : ∀ {u : State}, envMove u = .next t →
      (t.rst = true ∧ ∃ v, t = { u.resetStep with rdata := v }) ∨ t = u := by
    intro u hu
    cases hr : u.rst
    · rw [envMove_running hr] at hu
      exact .inr (Host.Outcome.next.inj hu).symm
    · rw [envMove_reset hr] at hu
      obtain rfl := Host.Outcome.next.inj hu
      exact .inl ⟨hr, _, rfl⟩
  unfold step at h
  cases he : s.nextMove <;> rw [he] at h
  case host width word =>
    obtain hreset | ⟨hr, hw, i, hi, hx⟩ := hostCase h
    exacts [.inl hreset, .inr (.inl ⟨hr, i, ⟨hw, hi⟩, hx⟩)]
  case hostAt width write addr value =>
    obtain ⟨hwin, hm⟩ := hostMoveAt_next h
    obtain hreset | ⟨hr, hw, i, hi, hx⟩ := hostCase hm
    exacts [.inl hreset, .inr (.inl ⟨hr, i, ⟨hw, hwin, hi⟩, hx⟩)]
  case sequencer =>
    cases hr : s.rst
    · exact .inr (.inr (.inl ⟨rfl, by rwa [move, blockMove_running (s := s.takeMove) hr] at h⟩))
    · rw [move, blockMove_reset (s := s.takeMove) hr] at h
      obtain rfl := Host.Outcome.next.inj h
      exact .inl ⟨hr, _, rfl⟩
  all_goals
    obtain hreset | hchange := envCase h
    exacts [.inl hreset, .inr (.inr (.inr hchange))]

end Sys2Proof.Machine
end

section
/-! PROOFS. What an instruction can do to the block, and which host accesses carry which instructions
(20_memory.md R64 to R66, 30_encoding.md R98, R99). -/

namespace Sys2Proof.Machine

/-! ### The block after an instruction -/

/-- The instruction starts a transaction when the block is idle (R204 to R207). -/
def startsCommand : Instr → Bool
  | .writeFrame _ => true
  | .readFrame _ => true
  | .sendBreak _ => true
  | .rxFlush _ => true
  | .wrCmd _ => true
  | _ => false

/-- The instruction writes a data register (R36). -/
def writesData : Instr → Bool
  | .wrData0 _ => true
  | .wrData1 _ => true
  | .wrData2 _ => true
  | .wrData3 _ => true
  | .wrData4 _ => true
  | .wrData5 _ => true
  | .wrData6 _ => true
  | .wrData7 _ => true
  | _ => false

/-- The blocks an instruction can leave behind, one case per kind of register write. -/
inductive Block.Written (b : Block) : Instr → Block → Prop where
  | kept (i) : Written b i b
  | refused (i) : Written b i b.refuse
  | command {i} (op) (hi : startsCommand i = true) : Written b i (b.command op)
  | status (v) : Written b (.wrStatus v) (b.acknowledge v)
  | ctrl (v) : Written b (.wrCtrl v) (b.writeCtrl v)
  | fid (v) : Written b (.wrFid v) (b.writeFid v)
  | len (v) : Written b (.wrLen v) (b.writeLen v)
  | baud (v) : Written b (.wrBaud v) (b.writeBaud v)
  | data {i} (g) (hi : writesData i = true) : Written b i (b.writeData g)

/-- The commands by their opcode (R200). -/
theorem execWrCmd_written (v : Word) (s : State) :
    ∃ b, execWrCmd v s = .next { s with block := b } ∧ s.block.Written (.wrCmd v) b := by
  unfold execWrCmd
  dsimp only
  split
  case h_1 => exact ⟨_, rfl, .kept _⟩
  case h_2 => exact ⟨_, rfl, .command .write rfl⟩
  case h_3 => exact ⟨_, rfl, .command .read rfl⟩
  case h_4 => exact ⟨_, rfl, .command .brk rfl⟩
  case h_5 => exact ⟨_, rfl, .command .flush rfl⟩
  all_goals exact ⟨_, rfl, .refused _⟩

/-- What an instruction leaves of the block is one of the register writes' results. -/
theorem exec_written {i : Instr} {s t : State} (h : exec i s = .next t) : s.block.Written i t.block := by
  cases i
  case wrCmd v =>
    obtain ⟨b, hb, hw⟩ := execWrCmd_written v s
    obtain rfl := Host.Outcome.next.inj (hb.symm.trans h)
    exact hw
  all_goals obtain rfl := Host.Outcome.next.inj h
  case writeFrame => exact .command _ rfl
  case readFrame => exact .command _ rfl
  case sendBreak => exact .command _ rfl
  case rxFlush => exact .command _ rfl
  case wrCtrl => exact .ctrl _
  case wrStatus => exact .status _
  case wrFid => exact .fid _
  case wrLen => exact .len _
  case wrBaud => exact .baud _
  case wrData0 | wrData1 | wrData2 | wrData3 | wrData4 | wrData5 | wrData6 | wrData7 =>
    rw [State.mapBlock_block]
    exact .data _ rfl
  case reserved5 | reserved6 | reserved7 | reserved8 | reserved9 | reservedA | reservedB | reservedC |
      reservedD | reservedE | reservedF =>
    exact .refused _
  all_goals exact .kept _

/-- An instruction changes nothing of the state but the block and the read result. -/
theorem exec_frame {i : Instr} {s t : State} (h : exec i s = .next t) :
    ∃ b v, t = { s with block := b, rdata := v } := by
  obtain ⟨b, hb⟩ | ⟨v, hv⟩ := exec_shape i s
  · exact ⟨b, s.rdata, (Host.Outcome.next.inj (hb.symm.trans h)).symm⟩
  · exact ⟨s.block, some v, (Host.Outcome.next.inj (hv.symm.trans h)).symm⟩

/-! ### The transaction word of an access -/

@[simp] theorem txnWrite_mkTxn : ∀ (write : Bool) (off : BitVec 6), txnWrite (mkTxn write off) = write := by
  decide

@[simp] theorem txnOffset_mkTxn : ∀ (write : Bool) (off : BitVec 6), txnOffset (mkTxn write off) = off := by
  decide

/-- A transaction word is its W bit and its offset (R98). -/
theorem mkTxn_txnWrite_txnOffset : ∀ txn : BitVec 7, mkTxn (txnWrite txn) (txnOffset txn) = txn := by
  decide

/-- An aligned offset is four times the number of its register (R99). -/
theorem offset_of_aligned : ∀ off : BitVec 6, offsetAligned off = true →
    off = off.extractLsb' 2 4 ++ 0#2 := by
  decide

/-- A transaction word that decodes is the read or the write of some register (R98, R99). -/
theorem decode_bus_cases {txn : BitVec 7} {v : Word} {i : Instr} (h : decode (.bus txn v) = .ok i) :
    ∃ n : BitVec 4, (txn = mkTxn true (n ++ 0#2) ∧ i = decodeWrite n v) ∨
      (txn = mkTxn false (n ++ 0#2) ∧ i = decodeRead n) := by
  simp only [decode] at h
  split at h
  · rename_i hal
    refine ⟨(txnOffset txn).extractLsb' 2 4, ?_⟩
    rw [← offset_of_aligned _ hal]
    have htxn := mkTxn_txnWrite_txnOffset txn
    cases hw : txnWrite txn <;> rw [hw] at htxn h
    · exact .inr ⟨htxn.symm, (Except.ok.inj h).symm⟩
    · exact .inl ⟨htxn.symm, (Except.ok.inj h).symm⟩
  · simp at h

theorem startsCommand_decodeRead : ∀ n : BitVec 4, startsCommand (decodeRead n) = false := by decide

theorem writesData_decodeRead : ∀ n : BitVec 4, writesData (decodeRead n) = false := by decide

theorem decodeRead_ne_wrStatus (n : BitVec 4) (w : Word) : decodeRead n ≠ .wrStatus w := by
  unfold decodeRead
  split <;> simp

/-- Register 1 alone is CMD (R98). -/
theorem eq_of_startsCommand_decodeWrite {n : BitVec 4} {v : Word}
    (h : startsCommand (decodeWrite n v) = true) : n = 1 := by
  unfold decodeWrite at h
  split at h
  case h_2 hn => exact BitVec.eq_of_toNat_eq hn
  all_goals simp [startsCommand] at h

/-- Register 2 alone is STATUS (R98). -/
theorem eq_of_decodeWrite_eq_wrStatus {n : BitVec 4} {v w : Word}
    (h : decodeWrite n v = .wrStatus w) : n = 2 ∧ v = w := by
  unfold decodeWrite at h
  split at h <;> simp at h
  exact ⟨BitVec.eq_of_toNat_eq ‹_›, h⟩

/-- The registers from 8 on are the data registers (R98). -/
theorem le_of_writesData_decodeWrite {n : BitVec 4} {v : Word}
    (h : writesData (decodeWrite n v) = true) : 8 ≤ n.toNat := by
  by_contra hlow
  have hn : n.toNat < 8 := Nat.not_le.mp hlow
  interval_cases hk : n.toNat <;> simp [decodeWrite, hk, writesData] at h

end Sys2Proof.Machine
end

section
/-! PROOFS. What a step of the sequencer can do to the block (41_break_generator.md, 43_framer_commands.md). -/

namespace Sys2Proof.Machine

/-- The blocks a sequencer step at time `now` can leave behind, one case per rule. -/
inductive Block.Advances (now : Word) (b : Block) : Block → Prop where
  | held : Advances now b b
  | halved (hs : b.f.state = .brkFlush1) : Advances now b ((b.setBaud b.halfBaud).goto .brkSend)
  | breakPushed (hs : b.f.state = .brkSend) : Advances now b (b.goto .brkFlush2)
  | quiet (hs : b.f.state = .brkFlush2) (ho : b.f.op = .brk) :
      Advances now b ((b.setBaud b.baud).startTimer now .wakeDelay)
  | restored (hs : b.f.state = .brkFlush2) (ho : b.f.op ≠ .brk) :
      Advances now b ((b.setBaud b.baud).goto .txSync)
  | syncPushed (hs : b.f.state = .txSync) : Advances now b (b.goto .txPid)
  | pidPushed (hs : b.f.state = .txPid) : Advances now b (b.afterPid now)
  | dataPushed (hs : b.f.state = .txData) (hi : b.f.idx < b.len) : Advances now b b.afterData
  | cksPushed (hs : b.f.state = .txCks) : Advances now b (b.goto .txFlush)
  | flushed (hs : b.f.state = .txFlush) : Advances now b (b.afterFlush now)
  | completed (hs : b.f.state = .rxPoll) (hc : b.r.complete = true) : Advances now b b.complete
  | timedOut (hs : b.f.state = .rxPoll) : Advances now b (b.timeOut now)
  | received (hs : b.f.state = .rxPoll) {byte : Byte} {st : ReaderStep}
      (hp : b.r.processByte byte = some st) : Advances now b (b.received st)
  | drained (hs : b.f.state = .drain) (hk : b.f.k ≠ 0) :
      Advances now b { b with f := { b.f with k := b.f.k - 1 } }
  | succeeded (hs : b.f.state = .drain ∨ b.f.state = .wakeDelay ∨ b.f.state = .rxFlushing) :
      Advances now b (b.finish true)
  | failed (hs : b.f.state = .failDelay) : Advances now b (b.finish false)

/-- A pop leaves the block. -/
theorem rxPop_block {s t : State} {byte : Byte} (h : s.rxPop = some (byte, t)) : t.block = s.block := by
  obtain ⟨rest, -, rfl⟩ := (State.rxPop_eq_some_iff _ _ _).1 h
  rfl

/-- Every step of the sequencer follows one of the rules. -/
theorem seqStep_advances {s t : State} (h : seqStep s = .next t) : s.block.Advances s.nowMs t.block := by
  unfold seqStep at h
  cases hs : s.block.f.state <;> simp only [hs] at h
  case idle => obtain rfl := Host.Outcome.next.inj h; exact .held
  case brkFlush1 =>
    obtain ⟨-, rfl⟩ | ⟨-, rfl⟩ := seqBrkFlush1_cases h
    exacts [.held, .halved hs]
  case brkSend =>
    obtain ⟨-, rfl⟩ | ⟨-, rfl⟩ := seqBrkSend_cases h
    exacts [.held, .breakPushed hs]
  case brkFlush2 =>
    obtain ⟨-, rfl⟩ | ⟨-, ho, rfl⟩ | ⟨-, ho, rfl⟩ := seqBrkFlush2_cases h
    exacts [.held, .quiet hs ho, .restored hs ho]
  case txSync =>
    obtain ⟨-, rfl⟩ | ⟨-, rfl⟩ := seqTxSync_cases h
    exacts [.held, .syncPushed hs]
  case txPid =>
    obtain ⟨-, rfl⟩ | ⟨-, rfl⟩ := seqTxPid_cases h
    exacts [.held, .pidPushed hs]
  case txData =>
    obtain ⟨-, rfl⟩ | ⟨-, hi, d, -, rfl⟩ := seqTxData_cases h
    exacts [.held, .dataPushed hs hi]
  case txCks =>
    obtain ⟨-, rfl⟩ | ⟨-, rfl⟩ := seqTxCks_cases h
    exacts [.held, .cksPushed hs]
  case txFlush =>
    obtain ⟨-, rfl⟩ | ⟨-, rfl⟩ := seqTxFlush_cases h
    exacts [.held, .flushed hs]
  case rxPoll =>
    obtain ⟨hc, rfl⟩ | ⟨-, -, rfl⟩ | ⟨-, -, -, rfl⟩ | ⟨-, -, byte, s', st, hpop, hp, rfl⟩ := seqRxPoll_cases h
    · exact .completed hs hc
    · exact .timedOut hs
    · exact .held
    · rw [State.mapBlock_block, rxPop_block hpop]
      exact .received hs hp
  case drain =>
    obtain ⟨-, rfl⟩ | ⟨-, -, -, rfl⟩ | ⟨hk, -, byte, s', hpop, rfl⟩ := seqDrain_cases h
    · exact .succeeded (.inl hs)
    · exact .held
    · rw [State.mapBlock_block, rxPop_block hpop]
      exact .drained hs hk
  case wakeDelay =>
    unfold seqWakeDelay at h
    split at h <;> obtain rfl := Host.Outcome.next.inj h
    exacts [.succeeded (.inr (.inl hs)), .held]
  case failDelay =>
    unfold seqFailDelay at h
    split at h <;> obtain rfl := Host.Outcome.next.inj h
    exacts [.failed hs, .held]
  case rxFlushing =>
    obtain ⟨byte, hpop⟩ | ⟨-, rfl⟩ := seqRxFlushing_cases h
    · rw [rxPop_block hpop]
      exact .held
    · exact .succeeded (.inr (.inr hs))

/-- A sequencer step leaves the parameters, and never makes the receive FIFO longer. -/
theorem seqStep_frame {s t : State} (h : seqStep s = .next t) :
    t.params = s.params ∧ t.uart.rxFifo.length ≤ s.uart.rxFifo.length := by
  obtain ⟨b, rfl⟩ | ⟨byte, b, -, rfl⟩ | ⟨byte, rest, b, hf, rfl⟩ := seqStep_shape h
  · exact ⟨rfl, le_rfl⟩
  · exact ⟨rfl, le_rfl⟩
  · exact ⟨rfl, by simp [hf]⟩

end Sys2Proof.Machine
end

section
/-! PROOFS. The block's invariant is kept by every operation on the block (10_state.md R37 to R39,
43_framer_commands.md R201, R202). -/

namespace Sys2Proof.Machine

variable {b b' : Block}

/-! ### Shapes of change that keep it -/

/-- A change of the status, CTRL and DATA alone. -/
theorem Block.Inv.of_frame (h : b.Inv) (hout : b'.OutcomeLegal) (hf : b'.f = b.f) (hr : b'.r = b.r)
    (hfid : b'.fid = b.fid) (hlen : b'.len = b.len) (hbaud : b'.baud = b.baud)
    (hrate : b'.baudOut = b.baudOut) : b'.Inv where
  op := by rw [hf]; exact h.op
  operands := by unfold Block.OperandsLegal; rw [hf, hlen, hbaud]; exact h.operands
  counters := by unfold Block.CountersLegal; rw [hf, hlen]; exact h.counters
  rate := by unfold Block.RateLegal Block.halfBaud; rw [hf, hbaud, hrate]; exact h.rate
  reader := by rw [hr]; exact h.reader
  started := by unfold Block.ReaderStarted; rw [hf, hr, hfid, hlen]; exact h.started
  outcome := hout

/-- An idle block owes the rate, the reader and the outcome flags only. -/
theorem Block.Inv.of_idle (hs : b.f.state = .idle) (hrate : b.baudOut = b.baud) (hr : b.r.Legal)
    (hout : b.status.success = true → b.status.timeout = false ∧ b.status.rbErr = false ∧
      b.status.lenErr = false ∧ b.status.cfgErr = false) : b.Inv where
  op := by rw [hs]; rfl
  operands := fun hne => absurd hs hne
  counters := by simp [Block.CountersLegal, hs]
  rate := by simp [Block.RateLegal, hs, FState.halfRate, hrate]
  reader := hr
  started := by simp [Block.ReaderStarted, hs]
  outcome := ⟨fun hne => absurd hs hne, hout⟩

theorem Block.Inv.full_rate (h : b.Inv) (hs : b.f.state.halfRate = false) : b.baudOut = b.baud := by
  simpa [Block.RateLegal, hs] using h.rate

theorem Block.Inv.idle_rate (h : b.Inv) (hs : b.f.state = .idle) : b.baudOut = b.baud :=
  h.full_rate (by rw [hs]; rfl)

/-! ### Reset and the writes of the host -/

/-- A reader back at the start of a frame is legal for the frame it had. -/
theorem Reader.Legal.restart {r : Reader} (h : r.Legal) : r.toBreak.Legal := ⟨h.1, h.2.1, rfl⟩

theorem Reader.start_legal {len : BitVec 4} (hlen : len ≤ 8) (fid : FrameId) (r : Reader) :
    (r.start fid len).Legal := ⟨hlen, rfl, rfl⟩

theorem Block.Inv.reset (h : b.Inv) : b.reset.Inv :=
  .of_idle rfl rfl h.reader.restart nofun

theorem Block.Inv.refuse (h : b.Inv) : b.refuse.Inv :=
  h.of_frame h.outcome rfl rfl rfl rfl rfl rfl

theorem Block.Inv.writeCtrl (h : b.Inv) (v : Word) : (b.writeCtrl v).Inv :=
  h.of_frame h.outcome rfl rfl rfl rfl rfl rfl

theorem w1c_false (v : Word) (n : Nat) : w1c v n false = false := rfl

/-- Clearing flags keeps them legal: a flag that is 0 stays 0, and SUCCESS is no flag to clear. -/
theorem Block.Inv.acknowledge (h : b.Inv) (v : Word) : (b.acknowledge v).Inv := by
  refine h.of_frame ⟨fun hne => ?_, fun hsucc => ?_⟩ rfl rfl rfl rfl rfl rfl
  · obtain ⟨hd, hsu, hrb, hle, hcf, hto⟩ := h.outcome.1 hne
    simp [Status.clearFlags, w1c_false, hd, hsu, hrb, hle, hcf]
    exact fun hnf => by simp [hto hnf, w1c_false]
  · obtain ⟨hto, hrb, hle, hcf⟩ := h.outcome.2 hsucc
    simp [Status.clearFlags, w1c_false, hto, hrb, hle, hcf]

/-- A write that waits for IDLE keeps the invariant if it does so in IDLE. -/
theorem Block.Inv.whenIdle (h : b.Inv) (hi : b.f.state = .idle → b'.Inv) : (b.whenIdle b').Inv := by
  cases hb : b.busy
  · rw [Block.whenIdle_idle hb]
    exact hi (b.busy_eq_false_iff.mp hb)
  · rwa [Block.whenIdle_busy hb]

theorem Block.Inv.writeFid (h : b.Inv) (v : Word) : (b.writeFid v).Inv :=
  h.whenIdle fun hs => .of_idle hs (h.idle_rate hs) h.reader h.outcome.2

theorem Block.Inv.writeLen (h : b.Inv) (v : Word) : (b.writeLen v).Inv :=
  h.whenIdle fun hs => .of_idle hs (h.idle_rate hs) h.reader h.outcome.2

theorem Block.Inv.writeBaud (h : b.Inv) (v : Word) : (b.writeBaud v).Inv :=
  h.whenIdle fun hs => .of_idle hs rfl h.reader h.outcome.2

theorem Block.Inv.writeData (h : b.Inv) (g : Bytes8 → Bytes8) : (b.writeData g).Inv :=
  h.whenIdle fun hs => .of_idle hs (h.idle_rate hs) h.reader h.outcome.2

theorem Block.badLen_eq_false_iff (op : Op) (b : Block) :
    b.badLen op = false ↔ (op.checksLen = true → b.len ≤ 8) := by
  simp only [Block.badLen, Bool.and_eq_false_imp, decide_eq_false_iff_not, BitVec.not_lt]
  rfl

theorem Block.badBaud_eq_false_iff (op : Op) (b : Block) :
    b.badBaud op = false ↔ (op.checksBaud = true → 2 ≤ b.baud) := by
  simp [Block.badBaud]

/-- An accepted command starts with legal operands, all outcome flags at 0 and the full rate; one with an illegal
operand ends in IDLE without SUCCESS (R201). -/
theorem Block.Inv.accept (h : b.Inv) (hs : b.f.state = .idle) (op : Op) : (b.accept op).Inv := by
  cases hbad : (b.badLen op || b.badBaud op)
  · obtain ⟨hl, hb⟩ := Bool.or_eq_false_iff.mp hbad
    rw [Block.accept_ok hl hb]
    exact
      { op := by cases op <;> rfl
        operands := fun _ => ⟨(b.badLen_eq_false_iff op).mp hl, (b.badBaud_eq_false_iff op).mp hb⟩
        counters := by cases op <;> exact ⟨nofun, nofun, nofun⟩
        rate := by cases op <;> exact h.idle_rate hs
        reader := h.reader
        started := by cases op <;> exact nofun
        outcome := ⟨fun _ => ⟨rfl, rfl, rfl, rfl, rfl, fun _ => rfl⟩, nofun⟩ }
  · rw [Block.accept_bad hbad]
    exact .of_idle rfl (h.idle_rate hs) h.reader nofun

theorem Block.Inv.command (h : b.Inv) (op : Op) : (b.command op).Inv := by
  cases hb : b.busy
  · rw [Block.command_idle hb]
    exact h.accept (b.busy_eq_false_iff.mp hb) op
  · rw [Block.command_busy hb]
    exact h.refuse

/-- Every instruction of the host keeps the block's invariant. -/
theorem Block.Inv.written {i : Instr} (h : b.Inv) (hw : b.Written i b') : b'.Inv := by
  cases hw with
  | kept => exact h
  | refused => exact h.refuse
  | command op => exact h.command op
  | status v => exact h.acknowledge v
  | ctrl v => exact h.writeCtrl v
  | fid v => exact h.writeFid v
  | len v => exact h.writeLen v
  | baud v => exact h.writeBaud v
  | data g => exact h.writeData g

/-! ### The steps of the sequencer -/

/-- The flags a running transaction leaves at 0, but for TIMEOUT in FAIL_DELAY. -/
theorem Block.Inv.running_flags (h : b.Inv) (hne : b.f.state ≠ .idle) :
    b.status.done = false ∧ b.status.success = false ∧ b.status.rbErr = false ∧
    b.status.lenErr = false ∧ b.status.cfgErr = false ∧
    (b.f.state ≠ .failDelay → b.status.timeout = false) := h.outcome.1 hne

/-- A transaction ends without SUCCESS, with any failure flags, once the rate is restored (R202). -/
theorem Block.Inv.fail (h : b.Inv) (hrate : b.f.state.halfRate = false) (st : Status) :
    (({ b with status := st } : Block).finish false).Inv :=
  .of_idle rfl (h.full_rate hrate) h.reader nofun

/-- It ends with SUCCESS from any state but FAIL_DELAY, since no failure flag is set there (R202, R265). -/
theorem Block.Inv.succeed (h : b.Inv) (hrun : b.f.state ≠ .idle ∧ b.f.state ≠ .failDelay)
    (hrate : b.f.state.halfRate = false) : (b.finish true).Inv := by
  obtain ⟨-, -, hrb, hle, hcf, hto⟩ := h.running_flags hrun.1
  exact .of_idle rfl (h.full_rate hrate) h.reader fun _ => ⟨hto hrun.2, hrb, hle, hcf⟩

/-- A transaction that goes on in another state keeps its operands and its flags; what the new state asks is left. -/
theorem Block.Inv.goOn (h : b.Inv) (hrun : b.f.state ≠ .idle ∧ b.f.state ≠ .failDelay)
    (hop : b'.f.op = b.f.op) (hlen : b'.len = b.len) (hbaud : b'.baud = b.baud) (hst : b'.status = b.status)
    (hfits : opFits b'.f.state b.f.op = true) (hcount : b'.CountersLegal) (hrate : b'.RateLegal)
    (hr : b'.r.Legal) (hstart : b'.ReaderStarted) : b'.Inv where
  op := by rw [hop]; exact hfits
  operands := by
    intro _
    rw [hop, hlen, hbaud]
    exact h.operands hrun.1
  counters := hcount
  rate := hrate
  reader := hr
  started := hstart
  outcome := by
    obtain ⟨hd, hsu, hrb, hle, hcf, hto⟩ := h.running_flags hrun.1
    unfold Block.OutcomeLegal
    rw [hst]
    exact ⟨fun _ => ⟨hd, hsu, hrb, hle, hcf, fun _ => hto hrun.2⟩, fun hs => absurd hs (by simp [hsu])⟩

/-- While an operation with a length runs, LEN is at most 8. -/
theorem Block.Inv.len_le (h : b.Inv) (hne : b.f.state ≠ .idle) (hop : b.f.op.checksLen = true) : b.len ≤ 8 :=
  (h.operands hne).1 hop

theorem Op.checksLen_of_ne {op : Op} (hf : (op != .flush) = true) (hb : op ≠ .brk) : op.checksLen = true := by
  cases op <;> simp_all [Op.checksLen]

theorem Op.eq_write_of_checksLen {op : Op} (hc : op.checksLen = true) (hr : op ≠ .read) : op = .write := by
  cases op <;> simp_all [Op.checksLen]

/-- The reader is started for the frame of the registers, and RX_POLL begins (R209, R215). -/
theorem Block.Inv.startPoll (h : b.Inv) (hrun : b.f.state ≠ .idle ∧ b.f.state ≠ .failDelay)
    (hrate : b.f.state.halfRate = false) (hop : b.f.op.checksLen = true) (now : Word) :
    (b.startReader.startTimer now .rxPoll).Inv :=
  h.goOn hrun rfl rfl rfl rfl hop ⟨nofun, nofun, nofun⟩ (h.full_rate hrate)
    (Reader.start_legal (h.len_le hrun.1 hop) _ _) fun _ => ⟨rfl, BitVec.setWidth_eq _⟩

/-- After the PID a read polls, a frame without data is flushed, and one with data begins at DATA0 (R209). -/
theorem Block.Inv.afterPid (h : b.Inv) (hs : b.f.state = .txPid) (now : Word) : (b.afterPid now).Inv := by
  have hrun : b.f.state ≠ .idle ∧ b.f.state ≠ .failDelay := by simp [hs]
  have hfull : b.f.state.halfRate = false := by rw [hs]; rfl
  have hop : b.f.op.checksLen = true := by
    have hfits := h.op
    rwa [hs] at hfits
  unfold Block.afterPid
  split
  · exact h.startPoll hrun hfull hop now
  · have hw := Op.eq_write_of_checksLen hop ‹_›
    split
    · exact h.goOn hrun rfl rfl rfl rfl (by rw [hw]; rfl) ⟨nofun, nofun, nofun⟩ (h.full_rate hfull) h.reader nofun
    · have hpos : 0 < b.len := by bv_omega
      exact h.goOn hrun rfl rfl rfl rfl (by rw [hw]; rfl) ⟨fun _ => hpos, nofun, nofun⟩ (h.full_rate hfull)
        h.reader nofun

/-- The last data byte is followed by the checksum (R213). -/
theorem Block.afterData_last (hi : b.f.idx + 1 = b.len) :
    b.afterData = { b with f := { b.f with idx := b.f.idx + 1, state := .txCks } } := by
  rw [Block.afterData, if_pos hi]

theorem Block.afterData_next (hi : b.f.idx + 1 ≠ b.len) :
    b.afterData = { b with f := { b.f with idx := b.f.idx + 1, state := .txData } } := by
  rw [Block.afterData, if_neg hi]

/-- After a data byte the next one is still below LEN, or the checksum follows (R213). -/
theorem Block.Inv.afterData (h : b.Inv) (hs : b.f.state = .txData) (hi : b.f.idx < b.len) : b.afterData.Inv := by
  have hrun : b.f.state ≠ .idle ∧ b.f.state ≠ .failDelay := by simp [hs]
  have hfull : b.f.state.halfRate = false := by rw [hs]; rfl
  have hop : b.f.op = .write := by simpa [hs, opFits] using h.op
  by_cases hlast : b.f.idx + 1 = b.len
  · have hlen : b.len ≠ 0 := by bv_omega
    rw [Block.afterData_last hlast]
    exact h.goOn hrun rfl rfl rfl rfl (by rw [hop]; rfl) ⟨nofun, fun _ => hlen, nofun⟩ (h.full_rate hfull)
      h.reader nofun
  · have hnext : b.f.idx + 1 < b.len := by bv_omega
    rw [Block.afterData_next hlast]
    exact h.goOn hrun rfl rfl rfl rfl (by rw [hop]; rfl) ⟨fun _ => hnext, nofun, nofun⟩ (h.full_rate hfull)
      h.reader nofun

/-- A frame has at most 12 echo bytes to drain (R215). -/
theorem Block.echoCount_le (hlen : b.len ≤ 8) : b.echoCount ≤ 12 := by
  unfold Block.echoCount
  split
  · decide
  · bv_omega

/-- After the frame, VERIFY polls, DRAIN drains, and neither ends the transaction (R215, R218). -/
theorem Block.Inv.afterFlush (h : b.Inv) (hs : b.f.state = .txFlush) (now : Word) : (b.afterFlush now).Inv := by
  have hrun : b.f.state ≠ .idle ∧ b.f.state ≠ .failDelay := by simp [hs]
  have hfull : b.f.state.halfRate = false := by rw [hs]; rfl
  have hop : b.f.op = .write := by simpa [hs, opFits] using h.op
  have hlen : b.f.op.checksLen = true := by rw [hop]; rfl
  unfold Block.afterFlush
  split
  · exact h.startPoll hrun hfull hlen now
  · split
    · exact h.goOn hrun rfl rfl rfl rfl (by rw [hop]; rfl)
        ⟨nofun, nofun, fun _ => Block.echoCount_le (h.len_le hrun.1 hlen)⟩ (h.full_rate hfull) h.reader nofun
    · exact h.succeed hrun hfull

/-- A complete poll ends the transaction, with RB_ERR when the echo differs (R211). -/
theorem Block.Inv.complete (h : b.Inv) (hs : b.f.state = .rxPoll) : b.complete.Inv := by
  have hrun : b.f.state ≠ .idle ∧ b.f.state ≠ .failDelay := by simp [hs]
  have hfull : b.f.state.halfRate = false := by rw [hs]; rfl
  unfold Block.complete
  split
  · exact Block.Inv.succeed (h.of_frame h.outcome rfl rfl rfl rfl rfl rfl) hrun hfull
  · split
    · exact h.succeed hrun hfull
    · exact h.fail hfull _

/-- A poll that times out waits before it reports, when it reads, and else ends with RB_ERR (R212). -/
theorem Block.Inv.timeOut (h : b.Inv) (hs : b.f.state = .rxPoll) (now : Word) : (b.timeOut now).Inv := by
  have hne : b.f.state ≠ .idle := by simp [hs]
  have hfull : b.f.state.halfRate = false := by rw [hs]; rfl
  obtain ⟨hd, hsu, hrb, hle, hcf, -⟩ := h.running_flags hne
  unfold Block.timeOut
  dsimp only
  split
  · rename_i hread
    exact
      { op := by rw [Block.startTimer_f, hread]; rfl
        operands := fun _ => h.operands hne
        counters := ⟨nofun, nofun, nofun⟩
        rate := h.full_rate hfull
        reader := h.reader
        started := nofun
        outcome := ⟨fun _ => ⟨hd, hsu, hrb, hle, hcf, fun hnf => absurd rfl hnf⟩,
          fun hs => absurd (hsu.symm.trans hs) nofun⟩ }
  · exact h.fail hfull _

/-- A byte leaves the reader's fields fitting each other, and its frame as it was (R160 to R172). -/
theorem Reader.Legal.processByte {r : Reader} {byte : Byte} {st : ReaderStep} (h : r.Legal)
    (hp : r.processByte byte = some st) :
    st.reader.Legal ∧ st.reader.len = r.len ∧ st.reader.fid = r.fid := by
  have ⟨hlen, hpid, hshape⟩ := h
  obtain ⟨hnc, ⟨hs, -, rfl⟩ | ⟨hs, -, rfl⟩ | ⟨hs, -, rfl⟩ | ⟨hs, -, rfl⟩ | ⟨hs, -, rfl⟩ | ⟨hs, -, rfl⟩ |
    ⟨hs, r', ha, rfl⟩ | ⟨hs, -, rfl⟩ | ⟨hs, -, rfl⟩⟩ := Reader.processByte_cases hp <;> rw [hs] at hshape
  · exact ⟨⟨hlen, hpid, hshape⟩, rfl, rfl⟩
  · exact ⟨h, rfl, rfl⟩
  · exact ⟨⟨hlen, hpid, hshape⟩, rfl, rfl⟩
  · exact ⟨h.restart, rfl, rfl⟩
  · have hcount : r.count = 0 := hshape
    have hroom : r.count < r.len ∨ (r.len = 0 ∧ r.count = 0) := by bv_omega
    exact ⟨⟨hlen, hpid, hroom⟩, rfl, rfl⟩
  · exact ⟨h.restart, rfl, rfl⟩
  · obtain ⟨hlt, buf, -, rfl⟩ := Reader.append_cases ha
    refine ⟨⟨hlen, hpid, ?_⟩, rfl, rfl⟩
    by_cases hlast : r.count + 1 = r.len
    · have hpos : r.len ≠ 0 := by bv_omega
      simp only [if_pos hlast]
      exact ⟨hlast, hpos⟩
    · have hroom : r.count + 1 < r.len := by bv_omega
      simp only [if_neg hlast]
      exact .inl hroom
  · exact ⟨⟨hlen, hpid, hshape⟩, rfl, rfl⟩
  · exact ⟨h.restart, rfl, rfl⟩

/-- Every rule of the sequencer keeps the block's invariant. -/
theorem Block.Inv.advances {now : Word} (h : b.Inv) (ha : b.Advances now b') : b'.Inv := by
  have hop := h.op
  cases ha with
  | held => exact h
  | halved hs =>
    rw [hs] at hop
    exact h.goOn (by simp [hs]) rfl rfl rfl rfl hop ⟨nofun, nofun, nofun⟩ rfl h.reader nofun
  | breakPushed hs =>
    rw [hs] at hop
    have hhalf : b.baudOut = b.halfBaud := by simpa [Block.RateLegal, hs, FState.halfRate] using h.rate
    exact h.goOn (by simp [hs]) rfl rfl rfl rfl hop ⟨nofun, nofun, nofun⟩ hhalf h.reader nofun
  | quiet hs ho =>
    exact h.goOn (by simp [hs]) rfl rfl rfl rfl (by rw [ho]; rfl) ⟨nofun, nofun, nofun⟩ rfl h.reader nofun
  | restored hs ho =>
    rw [hs] at hop
    exact h.goOn (by simp [hs]) rfl rfl rfl rfl (Op.checksLen_of_ne hop ho) ⟨nofun, nofun, nofun⟩ rfl h.reader nofun
  | syncPushed hs =>
    rw [hs] at hop
    exact h.goOn (by simp [hs]) rfl rfl rfl rfl hop ⟨nofun, nofun, nofun⟩ (h.full_rate (by rw [hs]; rfl))
      h.reader nofun
  | pidPushed hs => exact h.afterPid hs now
  | dataPushed hs hi => exact h.afterData hs hi
  | cksPushed hs =>
    rw [hs] at hop
    exact h.goOn (by simp [hs]) rfl rfl rfl rfl hop ⟨nofun, nofun, nofun⟩ (h.full_rate (by rw [hs]; rfl))
      h.reader nofun
  | flushed hs => exact h.afterFlush hs now
  | completed hs => exact h.complete hs
  | timedOut hs => exact h.timeOut hs now
  | received hs hp =>
    have hrun : b.f.state ≠ .idle ∧ b.f.state ≠ .failDelay := by simp [hs]
    obtain ⟨hlegal, hlen, hfid⟩ := h.reader.processByte hp
    exact
      { op := hop
        operands := h.operands
        counters := h.counters
        rate := h.rate
        reader := hlegal
        started := fun hs => ⟨hlen.trans (h.started hs).1, hfid.trans (h.started hs).2⟩
        outcome := h.outcome }
  | drained hs hk =>
    have hk' : b.f.k - 1 ≤ 12 := by
      have := h.counters.2.2 hs
      bv_omega
    exact
      { op := hop
        operands := h.operands
        counters := ⟨h.counters.1, h.counters.2.1, fun _ => hk'⟩
        rate := h.rate
        reader := h.reader
        started := h.started
        outcome := h.outcome }
  | succeeded hs =>
    have hstate : (b.f.state ≠ .idle ∧ b.f.state ≠ .failDelay) ∧ b.f.state.halfRate = false := by
      obtain hs | hs | hs := hs <;> simp [hs, FState.halfRate]
    exact h.succeed hstate.1 hstate.2
  | failed hs => exact h.fail (by rw [hs]; rfl) b.status

/-! ### Every step -/

theorem startOne_rxFifo (echo : Bool) (u : Uart) : (u.startOne echo).rxFifo = u.rxFifo := by
  obtain hu | ⟨-, c, rest, -, hu⟩ := startOne_cases echo u <;> rw [hu]

theorem sendOne_rxFifo (u : Uart) : u.sendOne.rxFifo = u.rxFifo := by
  obtain ⟨-, hu⟩ | ⟨c, -, hu⟩ := sendOne_cases u <;> rw [hu]

theorem receiveOne_fits {depth : Nat} {u : Uart} (h : u.rxFifo.length ≤ depth) (draw : ArrivalDraw)
    (overflow : OverflowDraw) : (u.receiveOne depth draw overflow).rxFifo.length ≤ depth := by
  cases hbus : u.onBus with
  | nil => simpa [Uart.receiveOne, hbus] using h
  | cons b bus =>
    cases hx : draw.received b with
    | some x => rw [receiveOne_some hbus hx]; exact arrive_fits _ _ _ _
    | none => simpa [Uart.receiveOne, hbus, hx] using h

/-- A move of the environment keeps the receive FIFO within its capacity (R40). -/
theorem Event.change_uartLegal (e : Event) {s : State} (h : UartLegal s.params s.uart) :
    UartLegal s.params (e.change s).uart := by
  cases e with
  | txStart => exact (congrArg List.length (startOne_rxFifo _ _)).trans_le h
  | txDone => exact (congrArg List.length (sendOne_rxFifo _)).trans_le h
  | rxArrive draw overflow => exact receiveOne_fits h draw overflow
  | _ => exact h

/-- A reset step reaches the block, and of the UART at most the marks of its characters (R291). -/
theorem resetStep_rxFifo (s : State) : s.resetStep.uart.rxFifo = s.uart.rxFifo := by
  unfold State.resetStep
  dsimp only
  split <;> rfl

theorem State.Inv.takeMove {s : State} (h : s.Inv) : s.takeMove.Inv := ⟨h.block, h.uart, h.params⟩

/-- A move of the environment keeps the invariant. -/
theorem State.Inv.change {s : State} (h : s.Inv) (e : Event) : (e.change s).Inv :=
  ⟨by simpa using h.block, by simpa using e.change_uartLegal h.uart, by simpa using h.params⟩

theorem State.Inv.resetStep {s : State} (h : s.Inv) : s.resetStep.Inv :=
  ⟨by simpa using h.block.reset, by simpa [UartLegal, resetStep_rxFifo] using h.uart, h.params⟩

/-- Settles O46: a step resets the block, runs an instruction, follows a rule of the sequencer or leaves the block,
and each keeps the invariant. -/
theorem stepKeepsInvariant : Obligations.StepKeepsInvariant := by
  intro s t hs hstep
  have h := hs.takeMove
  obtain ⟨-, v, rfl⟩ | ⟨-, i, -, hx⟩ | ⟨-, hq⟩ | rfl := step_cases hstep
  · have hreset := (h.change s.nextMove).resetStep
    exact ⟨hreset.block, hreset.uart, hreset.params⟩
  · have hblock := h.block.written (exec_written hx)
    obtain ⟨b, v, rfl⟩ := exec_frame hx
    exact ⟨hblock, h.uart, h.params⟩
  · obtain ⟨hp, hf⟩ := seqStep_frame hq
    have hu : UartLegal t.params t.uart := by
      rw [hp]
      exact hf.trans h.uart
    exact ⟨h.block.advances (seqStep_advances hq), hu, hp ▸ h.params⟩
  · exact h.change s.nextMove

end Sys2Proof.Machine
end

section
/-! PROOFS. Blanking what no rule reads: the sequencer's fields, the reader and its buffer (10_state.md R37, R39). -/

namespace Sys2Proof.Machine

/-- The sequencer's fields as `Block.visible` leaves them. -/
def Seq.visible (f : Seq) : Seq :=
  { f with
    op := if f.state = .idle then .write else f.op
    idx := if f.state = .txData then f.idx else 0
    k := if f.state = .drain then f.k else 0
    t0 :=
      if f.state = .rxPoll ∨ f.state = .drain ∨ f.state = .wakeDelay ∨ f.state = .failDelay then f.t0 else 0 }

/-- The reader while it polls, as `Block.visible` leaves it. -/
def Reader.polled (r : Reader) : Reader := { r with buf := r.buf.blankFrom r.count.toNat }

/-- The reader while it does not poll, as `Block.visible` leaves it. -/
def Reader.resting (r : Reader) : Reader := { r with buf := Bytes8.zero, fid := 0, pid := 0x80, len := 0 }

/-- The reader in the sequencer's state `st`, as `Block.visible` leaves it. -/
def Reader.visibleIn (st : FState) (r : Reader) : Reader := if st = .rxPoll then r.polled else r.resting

variable (b : Block)

@[simp] theorem Block.visible_ctrl : b.visible.ctrl = b.ctrl := rfl
@[simp] theorem Block.visible_status : b.visible.status = b.status := rfl
@[simp] theorem Block.visible_fid : b.visible.fid = b.fid := rfl
@[simp] theorem Block.visible_len : b.visible.len = b.len := rfl
@[simp] theorem Block.visible_baud : b.visible.baud = b.baud := rfl
@[simp] theorem Block.visible_data : b.visible.data = b.data := rfl
@[simp] theorem Block.visible_baudOut : b.visible.baudOut = b.baudOut := rfl
@[simp] theorem Block.visible_f : b.visible.f = b.f.visible := rfl
@[simp] theorem Block.visible_r : b.visible.r = b.r.visibleIn b.f.state := rfl
@[simp] theorem Block.visible_busy : b.visible.busy = b.busy := rfl
@[simp] theorem Seq.visible_state (f : Seq) : f.visible.state = f.state := rfl

/-- The block, blanked field by field. -/
theorem Block.visible_eq : b.visible = { b with f := b.f.visible, r := b.r.visibleIn b.f.state } := rfl

@[simp] theorem Seq.visible_visible (f : Seq) : f.visible.visible = f.visible := by
  simp +contextual [Seq.visible]

/-! ### The buffer -/

@[simp] theorem Bytes8.blankFrom_zero (x : Bytes8) : x.blankFrom 0 = Bytes8.zero := rfl

/-- The bytes below the blank ones are those of the buffer. -/
theorem Bytes8.first_blankFrom (n : Nat) (x : Bytes8) : (x.blankFrom n).first n = x.first n :=
  Bytes8.copyFirst_first n x Bytes8.zero

theorem Bytes8.copyFirst_blankFrom (n : Nat) (x y : Bytes8) :
    Bytes8.copyFirst n (x.blankFrom n) y = Bytes8.copyFirst n x y := by
  simp +contextual [Bytes8.copyFirst, Bytes8.blankFrom]

@[simp] theorem Bytes8.blankFrom_blankFrom (n : Nat) (x : Bytes8) :
    (x.blankFrom n).blankFrom n = x.blankFrom n :=
  Bytes8.copyFirst_blankFrom n x Bytes8.zero

/-- A byte written at the first blank index leaves the same buffer below the next index. -/
theorem Bytes8.set?_blankFrom (n : Nat) (x : Bytes8) (c : Byte) :
    ((x.blankFrom n).set? n c).map (Bytes8.blankFrom (n + 1)) = (x.set? n c).map (Bytes8.blankFrom (n + 1)) := by
  rcases n with _ | _ | _ | _ | _ | _ | _ | _ | n <;> rfl

/-! ### The reader -/

@[simp] theorem Reader.polled_state (r : Reader) : r.polled.state = r.state := rfl
@[simp] theorem Reader.polled_count (r : Reader) : r.polled.count = r.count := rfl
@[simp] theorem Reader.polled_buf (r : Reader) : r.polled.buf = r.buf.blankFrom r.count.toNat := rfl
@[simp] theorem Reader.polled_pid (r : Reader) : r.polled.pid = r.pid := rfl
@[simp] theorem Reader.polled_len (r : Reader) : r.polled.len = r.len := rfl

@[simp] theorem Reader.polled_polled (r : Reader) : r.polled.polled = r.polled := by
  simp [Reader.polled]

@[simp] theorem Reader.polled_complete (r : Reader) : r.polled.complete = r.complete := rfl

@[simp] theorem Reader.resting_resting (r : Reader) : r.resting.resting = r.resting := rfl

@[simp] theorem Reader.polled_resting (r : Reader) : r.polled.resting = r.resting := rfl

@[simp] theorem Reader.visibleIn_rxPoll (r : Reader) : r.visibleIn .rxPoll = r.polled := rfl

@[simp] theorem Reader.visibleIn_of_ne {st : FState} (h : st ≠ .rxPoll) (r : Reader) :
    r.visibleIn st = r.resting := if_neg h

@[simp] theorem Reader.resting_visibleIn (st : FState) (r : Reader) : (r.visibleIn st).resting = r.resting := by
  unfold Reader.visibleIn
  split <;> rfl

@[simp] theorem Reader.visibleIn_visibleIn (st : FState) (r : Reader) :
    (r.visibleIn st).visibleIn st = r.visibleIn st := by
  unfold Reader.visibleIn
  split
  · exact r.polled_polled
  · rfl

@[simp] theorem Reader.visibleIn_state (st : FState) (r : Reader) : (r.visibleIn st).state = r.state := by
  unfold Reader.visibleIn
  split <;> rfl

@[simp] theorem Reader.visibleIn_count (st : FState) (r : Reader) : (r.visibleIn st).count = r.count := by
  unfold Reader.visibleIn
  split <;> rfl

/-- A legal reader that checks its checksum has filled its buffer. -/
theorem Reader.Legal.expectedCks_polled {r : Reader} (h : r.Legal) (hs : r.state = .waitForChecksum) :
    r.polled.expectedCks = r.expectedCks := by
  have hcount : r.count = r.len := by
    have hshape := h.2.2
    rw [hs] at hshape
    exact hshape.1
  simp only [Reader.expectedCks, Reader.polled, hcount, Bytes8.first_blankFrom]

/-- A legal complete reader has filled its buffer (R173). -/
theorem Reader.Legal.count_of_complete {r : Reader} (h : r.Legal) (hc : r.complete = true) : r.count = r.len := by
  have hshape := h.2.2
  simp only [Reader.complete, Bool.or_eq_true, Bool.and_eq_true, beq_iff_eq] at hc
  obtain hs | ⟨hl, hs⟩ := hc <;> rw [hs] at hshape
  · exact hshape.1
  · have hcases : r.count < r.len ∨ (r.len = 0 ∧ r.count = 0) := hshape
    bv_omega

/-- The reader after a byte, blanked, with the mismatch flag. -/
def ReaderStep.polled (st : ReaderStep) : ReaderStep := ⟨st.reader.polled, st.mismatch⟩

/-- An append to the blanked reader is the append to the reader, blanked from the next index on. -/
theorem Reader.append_polled (r : Reader) (c : Byte) :
    (r.polled.append c).map Reader.polled = (r.append c).map Reader.polled := by
  have hset := Bytes8.set?_blankFrom r.count.toNat r.buf c
  by_cases hlt : r.count < r.len
  · simp only [Reader.append, Reader.polled_count, Reader.polled_len, Reader.polled_buf, hlt, if_true]
    cases hx : r.buf.set? r.count.toNat c <;> cases hy : (r.buf.blankFrom r.count.toNat).set? r.count.toNat c <;>
      rw [hx, hy] at hset
    case some.some x y =>
      have hn : (r.count + 1).toNat = r.count.toNat + 1 := by
        have := (Bytes8.set?_toList hx).1
        bv_omega
      have hblank : y.blankFrom (r.count.toNat + 1) = x.blankFrom (r.count.toNat + 1) := Option.some.inj hset
      simp only [Option.map_some, Reader.polled, hn, hblank]
      rfl
    all_goals simp at hset ⊢
  · simp [Reader.append, hlt]

/-- A byte takes the blanked reader where it takes the reader. -/
theorem Reader.Legal.processByte_polled {r : Reader} (h : r.Legal) (c : Byte) :
    (r.polled.processByte c).map ReaderStep.polled = (r.processByte c).map ReaderStep.polled := by
  cases hc : r.complete
  case true => rw [Reader.processByte_complete hc, Reader.processByte_complete (r := r.polled) hc]
  simp only [Reader.processByte, Reader.polled_complete, Reader.polled_state, Reader.polled_pid, hc,
    Bool.false_eq_true, if_false]
  cases hs : r.state <;> dsimp only
  case waitForBreak | waitForSync =>
    split <;> simp [ReaderStep.polled, Reader.polled, Reader.toBreak]
  case waitForPid =>
    by_cases hpid : c = r.pid <;> simp [hpid, ReaderStep.polled, Reader.polled, Reader.toBreak]
  case waitForData =>
    have happ := r.append_polled c
    cases hx : r.append c <;> cases hy : r.polled.append c <;> simp_all [ReaderStep.polled]
  case waitForChecksum =>
    rw [h.expectedCks_polled hs]
    split <;> simp [ReaderStep.polled, Reader.polled, Reader.toBreak]

end Sys2Proof.Machine
end

section
/-! PROOFS. No operation on the block reads what `Block.visible` blanks (10_state.md R37, R39). -/

namespace Sys2Proof.Machine

/-- Blanking twice is blanking once. -/
@[simp] theorem Block.visible_visible (b : Block) : b.visible.visible = b.visible := by
  simp [Block.visible_eq]

/-- The operation `g` reads nothing of the block `b` that is blanked. -/
def Block.Blind (g : Block → Block) (b : Block) : Prop := (g b.visible).visible = (g b).visible

variable {b : Block}

/-! ### The writes of the host -/

theorem Block.blind_refuse : b.Blind Block.refuse := by
  simp [Block.Blind, Block.visible_eq, Block.refuse]

theorem Block.blind_acknowledge (v : Word) : b.Blind (Block.acknowledge v) := by
  simp [Block.Blind, Block.visible_eq, Block.acknowledge]

theorem Block.blind_writeCtrl (v : Word) : b.Blind (Block.writeCtrl v) := by
  simp [Block.Blind, Block.visible_eq, Block.writeCtrl, Block.busy]

/-- A write that waits for IDLE is blind when the write itself is. -/
theorem Block.blind_whenIdle {g : Block → Block} (hg : b.Blind g) : b.Blind fun b => b.whenIdle (g b) := by
  unfold Block.Blind
  beta_reduce
  cases hb : b.busy
  · rw [Block.whenIdle_idle hb, Block.whenIdle_idle (b := b.visible) hb]
    exact hg
  · rw [Block.whenIdle_busy hb, Block.whenIdle_busy (b := b.visible) hb]
    exact b.visible_visible

theorem Block.blind_writeFid (v : Word) : b.Blind (Block.writeFid v) :=
  Block.blind_whenIdle (by simp [Block.Blind, Block.visible_eq])

theorem Block.blind_writeLen (v : Word) : b.Blind (Block.writeLen v) :=
  Block.blind_whenIdle (by simp [Block.Blind, Block.visible_eq])

theorem Block.blind_writeBaud (v : Word) : b.Blind (Block.writeBaud v) :=
  Block.blind_whenIdle (by simp [Block.Blind, Block.visible_eq])

theorem Block.blind_writeData (g : Bytes8 → Bytes8) : b.Blind (Block.writeData g) :=
  Block.blind_whenIdle (by simp [Block.Blind, Block.visible_eq])

/-- A command writes `f.op`, and its first state reads no other field without a reset value (R201). -/
theorem Block.blind_accept (op : Op) : b.Blind (Block.accept op) := by
  unfold Block.Blind
  cases hbad : (b.badLen op || b.badBaud op)
  · obtain ⟨hl, hb⟩ := Bool.or_eq_false_iff.mp hbad
    rw [Block.accept_ok hl hb, Block.accept_ok (b := b.visible) hl hb]
    cases op <;> simp [Block.visible_eq, Seq.visible, Op.firstState]
  · rw [Block.accept_bad hbad, Block.accept_bad (b := b.visible) hbad]
    simp [Block.visible_eq, Seq.visible, Block.badLen, Block.badBaud]

theorem Block.blind_command (op : Op) : b.Blind (Block.command op) := by
  unfold Block.Blind
  cases hb : b.busy
  · rw [Block.command_idle hb, Block.command_idle (b := b.visible) hb]
    exact Block.blind_accept op
  · rw [Block.command_busy hb, Block.command_busy (b := b.visible) hb]
    exact Block.blind_refuse

/-! ### The rules of the sequencer -/

theorem Block.blind_finish (ok : Bool) : b.Blind (Block.finish ok) := by
  simp [Block.Blind, Block.visible_eq, Block.finish, Seq.visible]

/-- The sequencer goes on, at some rate, to a state that reads neither a counter nor the timer nor the reader. -/
theorem Block.blind_setBaud_goto {rate : Block → Word} {st : FState} (hne : b.f.state ≠ .idle)
    (hrate : rate b.visible = rate b)
    (hst : st ≠ .txData ∧ st ≠ .rxPoll ∧ st ≠ .drain ∧ st ≠ .wakeDelay ∧ st ≠ .failDelay) :
    b.Blind fun b => (b.setBaud (rate b)).goto st := by
  obtain ⟨hdata, hpoll, hdrain, hwake, hfail⟩ := hst
  unfold Block.Blind
  beta_reduce
  rw [hrate]
  simp [Block.visible_eq, Block.setBaud, Block.goto, Seq.visible, hne, hdata, hpoll, hdrain, hwake, hfail]

theorem Block.blind_goto {st : FState} (hne : b.f.state ≠ .idle)
    (hst : st ≠ .txData ∧ st ≠ .rxPoll ∧ st ≠ .drain ∧ st ≠ .wakeDelay ∧ st ≠ .failDelay) :
    b.Blind (Block.goto st) :=
  Block.blind_setBaud_goto (rate := Block.baudOut) hne rfl hst

/-- RX_POLL begins with the timer and the reader written (R209, R215). -/
theorem Block.blind_startPoll (hne : b.f.state ≠ .idle) (now : Word) :
    b.Blind fun b => b.startReader.startTimer now .rxPoll := by
  simp [Block.Blind, Block.visible_eq, Block.startReader, Block.startTimer, Seq.visible, hne, Reader.start,
    Reader.polled]

/-- The quiet time begins with the timer written (R142). -/
theorem Block.blind_quiet (hs : b.f.state = .brkFlush2) (now : Word) :
    b.Blind fun b =>
      if b.f.op = .brk then (b.setBaud b.baud).startTimer now .wakeDelay else (b.setBaud b.baud).goto .txSync := by
  have hop : b.visible.f.op = b.f.op := by simp [Seq.visible, hs]
  unfold Block.Blind
  beta_reduce
  rw [hop]
  split
  · simp [Block.visible_eq, Block.setBaud, Block.startTimer, Seq.visible, hs]
  · exact Block.blind_setBaud_goto (rate := Block.baud) (by simp [hs]) rfl (by decide)

theorem Block.blind_afterPid (hs : b.f.state = .txPid) (now : Word) : b.Blind (Block.afterPid now) := by
  have hop : b.visible.f.op = b.f.op := by simp [Seq.visible, hs]
  have hne : b.f.state ≠ .idle := by simp [hs]
  unfold Block.Blind Block.afterPid
  rw [hop, Block.visible_len]
  split
  · exact Block.blind_startPoll hne now
  · split
    · exact Block.blind_goto hne (by decide)
    · simp [Block.visible_eq, Seq.visible, hs]

theorem Block.blind_afterData (hs : b.f.state = .txData) : b.Blind Block.afterData := by
  have hidx : b.visible.f.idx = b.f.idx := by simp [Seq.visible, hs]
  unfold Block.Blind
  by_cases hlast : b.f.idx + 1 = b.len
  · rw [Block.afterData_last hlast, Block.afterData_last (b := b.visible) (by rw [hidx]; exact hlast)]
    simp [Block.visible_eq, Seq.visible, hs]
  · rw [Block.afterData_next hlast, Block.afterData_next (b := b.visible) (by rw [hidx]; exact hlast)]
    simp [Block.visible_eq, Seq.visible, hs]

theorem Block.blind_afterFlush (hs : b.f.state = .txFlush) (now : Word) : b.Blind (Block.afterFlush now) := by
  unfold Block.Blind Block.afterFlush
  rw [Block.visible_ctrl]
  split
  · exact Block.blind_startPoll (by simp [hs]) now
  · split
    · simp [Block.visible_eq, Block.startTimer, Block.echoCount, Seq.visible, hs]
    · exact Block.blind_finish true

/-- A complete reader has filled its buffer, and what it read is not blanked (R211). -/
theorem Block.blind_complete (hs : b.f.state = .rxPoll) (hr : b.r.Legal) (hc : b.r.complete = true) :
    b.Blind Block.complete := by
  have hop : b.visible.f.op = b.f.op := by simp [Seq.visible, hs]
  have hfull := hr.count_of_complete hc
  have hbuf : b.visible.r.buf = b.r.buf.blankFrom b.r.len.toNat := by simp [hs, hfull]
  have hlen : b.visible.r.len = b.r.len := by simp [hs]
  have hecho : b.visible.echoMatches = b.echoMatches := by
    simp only [Block.echoMatches, hbuf, hlen, Bytes8.first_blankFrom, Block.visible_data]
  unfold Block.Blind Block.complete
  rw [hop, hecho, hlen, hbuf, Bytes8.copyFirst_blankFrom]
  split
  · simp [Block.visible_eq, Block.finish, Seq.visible]
  · split <;> simp [Block.visible_eq, Block.finish, Seq.visible]

theorem Block.blind_timeOut (hs : b.f.state = .rxPoll) (now : Word) : b.Blind (Block.timeOut now) := by
  have hop : b.visible.f.op = b.f.op := by simp [Seq.visible, hs]
  unfold Block.Blind Block.timeOut
  dsimp only
  rw [hop]
  split
  · simp [Block.visible_eq, Block.startTimer, Seq.visible, hs]
  · simp [Block.visible_eq, Block.finish, Seq.visible]

theorem Block.blind_drained (hs : b.f.state = .drain) :
    b.Blind fun b => { b with f := { b.f with k := b.f.k - 1 } } := by
  simp [Block.Blind, Block.visible_eq, Seq.visible, hs]

/-- What the reader makes of a byte shows in the block only through its blanked fields. -/
theorem Block.visible_received (hs : b.f.state = .rxPoll) {st st' : ReaderStep} (h : st.polled = st'.polled) :
    (b.visible.received st).visible = (b.received st').visible := by
  obtain ⟨hr, hm⟩ := ReaderStep.mk.inj h
  simp [Block.visible_eq, Block.received, hs, hr, hm]

end Sys2Proof.Machine
end

section
/-! PROOFS. Two states that differ only in what no rule reads step alike (10_state.md R37, R39). -/

namespace Sys2Proof.Machine

variable {s : State}

@[simp] theorem State.visible_block (s : State) : s.visible.block = s.block.visible := rfl
@[simp] theorem State.visible_uart (s : State) : s.visible.uart = s.uart := rfl
@[simp] theorem State.visible_params (s : State) : s.visible.params = s.params := rfl
@[simp] theorem State.visible_rst (s : State) : s.visible.rst = s.rst := rfl
@[simp] theorem State.visible_nowMs (s : State) : s.visible.nowMs = s.nowMs := rfl

@[simp] theorem State.visible_visible (s : State) : s.visible.visible = s.visible :=
  congrArg (fun b => { s with block := b }) s.block.visible_visible

/-- A step that holds shows no blanked field. -/
theorem visibleOutcome_held (s : State) : visibleOutcome (.next s.visible) = visibleOutcome (.next s) :=
  congrArg Host.Outcome.next s.visible_visible

/-- A blind operation on the block shows no blanked field. -/
theorem visibleOutcome_mapBlock {g : Block → Block} (hg : s.block.Blind g) :
    visibleOutcome (.next (s.visible.mapBlock g)) = visibleOutcome (.next (s.mapBlock g)) :=
  congrArg (fun b => (Host.Outcome.next { s with block := b } : StepOutcome)) hg

/-! ### The host's instructions -/

theorem Block.visible_statusWord (b : Block) : b.visible.statusWord = b.statusWord := by
  simp [Block.statusWord]

/-- What a read returns is not blanked (R27 to R36). -/
theorem visibleOutcome_returnRead {v : Block → Word} (hv : v s.block.visible = v s.block) :
    visibleOutcome (.next (s.visible.returnRead (v s.visible.block))) =
      visibleOutcome (.next (s.returnRead (v s.block))) := by
  rw [State.visible_block, hv]
  exact congrArg (fun b => Host.Outcome.next { s with block := b, rdata := some (v s.block) })
    s.block.visible_visible

theorem visibleOutcome_execWrCmd (v : Word) (s : State) :
    visibleOutcome (execWrCmd v s.visible) = visibleOutcome (execWrCmd v s) := by
  unfold execWrCmd
  dsimp only
  split
  case h_1 => exact visibleOutcome_held s
  case h_2 | h_3 | h_4 | h_5 => exact visibleOutcome_mapBlock (Block.blind_command _)
  all_goals exact visibleOutcome_mapBlock Block.blind_refuse

/-- No instruction reads a blanked field. -/
theorem visibleOutcome_exec (i : Instr) (s : State) :
    visibleOutcome (exec i s.visible) = visibleOutcome (exec i s) := by
  cases i
  case wrCmd v => exact visibleOutcome_execWrCmd v s
  case nop | wrPid | wrCks => exact visibleOutcome_held s
  case writeFrame | readFrame | sendBreak | rxFlush => exact visibleOutcome_mapBlock (Block.blind_command _)
  case wrCtrl v => exact visibleOutcome_mapBlock (Block.blind_writeCtrl v)
  case wrStatus v => exact visibleOutcome_mapBlock (Block.blind_acknowledge v)
  case wrFid v => exact visibleOutcome_mapBlock (Block.blind_writeFid v)
  case wrLen v => exact visibleOutcome_mapBlock (Block.blind_writeLen v)
  case wrBaud v => exact visibleOutcome_mapBlock (Block.blind_writeBaud v)
  case wrData0 | wrData1 | wrData2 | wrData3 | wrData4 | wrData5 | wrData6 | wrData7 =>
    exact visibleOutcome_mapBlock (Block.blind_writeData _)
  case rdStatus => exact visibleOutcome_returnRead (v := Block.statusWord) s.block.visible_statusWord
  case rdCtrl => exact visibleOutcome_returnRead (v := Block.ctrlWord) rfl
  case rdCmd => exact visibleOutcome_returnRead (v := Block.cmdWord) rfl
  case rdFid => exact visibleOutcome_returnRead (v := Block.fidWord) rfl
  case rdPid => exact visibleOutcome_returnRead (v := Block.pidWord) rfl
  case rdLen => exact visibleOutcome_returnRead (v := Block.lenWord) rfl
  case rdCks => exact visibleOutcome_returnRead (v := Block.cksWord) rfl
  case rdBaud => exact visibleOutcome_returnRead (v := Block.baudWord) rfl
  case rdData0 => exact visibleOutcome_returnRead (v := fun b => dataWord b.data.b0) rfl
  case rdData1 => exact visibleOutcome_returnRead (v := fun b => dataWord b.data.b1) rfl
  case rdData2 => exact visibleOutcome_returnRead (v := fun b => dataWord b.data.b2) rfl
  case rdData3 => exact visibleOutcome_returnRead (v := fun b => dataWord b.data.b3) rfl
  case rdData4 => exact visibleOutcome_returnRead (v := fun b => dataWord b.data.b4) rfl
  case rdData5 => exact visibleOutcome_returnRead (v := fun b => dataWord b.data.b5) rfl
  case rdData6 => exact visibleOutcome_returnRead (v := fun b => dataWord b.data.b6) rfl
  case rdData7 => exact visibleOutcome_returnRead (v := fun b => dataWord b.data.b7) rfl
  all_goals exact visibleOutcome_mapBlock Block.blind_refuse

/-! ### The sequencer -/

/-- The timer is read in the states that keep it. -/
theorem State.visible_deadline {t : Word} (hs : s.block.f.state = .rxPoll ∨ s.block.f.state = .drain ∨
    s.block.f.state = .wakeDelay ∨ s.block.f.state = .failDelay) : s.visible.deadline t = s.deadline t := by
  simp [State.deadline, Seq.visible, hs]

theorem State.visible_rxPop (s : State) :
    s.visible.rxPop = s.rxPop.map fun p => (p.1, p.2.visible) := by
  unfold State.rxPop
  rw [State.visible_uart]
  cases s.uart.rxFifo <;> rfl

/-- A condition on what is seen decides between an operation on the block and holding. -/
theorem visibleOutcome_ite {c : Bool} {g : Block → Block} (hg : s.block.Blind g) :
    visibleOutcome (if c then .next (s.visible.mapBlock g) else .next s.visible) =
      visibleOutcome (if c then .next (s.mapBlock g) else .next s) := by
  cases c
  · exact visibleOutcome_held s
  · exact visibleOutcome_mapBlock hg

/-- So it is with a push. -/
theorem visibleOutcome_push {c : Bool} {byte : Byte} {g : Block → Block} (hg : s.block.Blind g) :
    visibleOutcome (if c then .next ((s.visible.txPush byte).mapBlock g) else .next s.visible) =
      visibleOutcome (if c then .next ((s.txPush byte).mapBlock g) else .next s) := by
  cases c
  · exact visibleOutcome_held s
  · exact visibleOutcome_mapBlock (s := s.txPush byte) hg

theorem visibleOutcome_txData (hs : s.block.f.state = .txData) :
    visibleOutcome (seqTxData s.visible) = visibleOutcome (seqTxData s) := by
  have hidx : s.block.visible.f.idx = s.block.f.idx := by simp [Seq.visible, hs]
  simp only [seqTxData, State.visible_uart, State.visible_block, Block.visible_len, Block.visible_data, hidx]
  by_cases hready : s.uart.txReady = true
  · by_cases hi : s.block.f.idx < s.block.len
    · simp only [hready, hi, if_true]
      cases s.block.data.get? s.block.f.idx.toNat with
      | none => rfl
      | some d => exact visibleOutcome_mapBlock (s := s.txPush d) (Block.blind_afterData hs)
    · simp only [hready, hi, if_true, if_false]
  · simp only [hready]
    exact visibleOutcome_held s

/-- A byte popped and given to the reader shows no blanked field. -/
theorem visibleOutcome_received (hs : s.block.f.state = .rxPoll) {st st' : ReaderStep} (h : st'.polled = st.polled) :
    visibleOutcome (.next (s.visible.mapBlock (Block.received st'))) =
      visibleOutcome (.next (s.mapBlock (Block.received st))) :=
  congrArg (fun b => (Host.Outcome.next { s with block := b } : StepOutcome)) (Block.visible_received hs h)

theorem visibleOutcome_rxPoll (hs : s.block.f.state = .rxPoll) (hr : s.block.r.Legal) :
    visibleOutcome (seqRxPoll s.visible) = visibleOutcome (seqRxPoll s) := by
  have hreader : s.visible.block.r = s.block.r.polled := by simp [hs]
  have htime : s.visible.deadline Config.tFrameMs = s.deadline Config.tFrameMs :=
    State.visible_deadline (.inl hs)
  simp only [seqRxPoll, hreader, htime, Reader.polled_complete, State.visible_rxPop, Reader.polled_state]
  split
  · rename_i hc
    exact visibleOutcome_mapBlock (Block.blind_complete hs hr hc)
  · split
    · exact visibleOutcome_mapBlock (Block.blind_timeOut hs s.nowMs)
    · cases hpop : s.rxPop with
      | none => exact visibleOutcome_held s
      | some p =>
        have hblock := rxPop_block hpop
        have hbyte := hr.processByte_polled p.1
        simp only [Option.map_some]
        cases hx : s.block.r.processByte p.1 <;> cases hy : s.block.r.polled.processByte p.1 <;>
          simp only [hx, hy, Option.map_some, Option.map_none, reduceCtorEq, Option.some.injEq] at hbyte
        case none.none => rfl
        case some.some st st' => exact visibleOutcome_received (s := p.2) (by rw [hblock, hs]) hbyte

theorem visibleOutcome_drain (hs : s.block.f.state = .drain) :
    visibleOutcome (seqDrain s.visible) = visibleOutcome (seqDrain s) := by
  have hk : s.visible.block.f.k = s.block.f.k := by simp [Seq.visible, hs]
  have htime : s.visible.deadline Config.tFrameMs = s.deadline Config.tFrameMs :=
    State.visible_deadline (.inr (.inl hs))
  simp only [seqDrain, hk, htime, State.visible_rxPop]
  split
  · exact visibleOutcome_mapBlock (Block.blind_finish true)
  · split
    · exact visibleOutcome_mapBlock (Block.blind_finish true)
    · cases hpop : s.rxPop with
      | none => exact visibleOutcome_held s
      | some p =>
        have hstate : p.2.block.f.state = .drain := by rw [rxPop_block hpop, hs]
        exact visibleOutcome_mapBlock (Block.blind_drained hstate)

theorem visibleOutcome_rxFlushing (s : State) :
    visibleOutcome (seqRxFlushing s.visible) = visibleOutcome (seqRxFlushing s) := by
  unfold seqRxFlushing
  rw [State.visible_rxPop]
  cases s.rxPop with
  | none => exact visibleOutcome_mapBlock (Block.blind_finish true)
  | some p => exact visibleOutcome_held p.2

/-- No rule of the sequencer reads a blanked field. -/
theorem visibleOutcome_seqStep (s : State) (hr : s.block.r.Legal) :
    visibleOutcome (seqStep s.visible) = visibleOutcome (seqStep s) := by
  unfold seqStep
  rw [State.visible_block, Block.visible_f, Seq.visible_state]
  cases hs : s.block.f.state <;> dsimp only
  case idle => exact visibleOutcome_held s
  case brkFlush1 =>
    exact visibleOutcome_ite (Block.blind_setBaud_goto (rate := Block.halfBaud) (by simp [hs]) rfl (by decide))
  case brkSend => exact visibleOutcome_push (Block.blind_goto (by simp [hs]) (by decide))
  case brkFlush2 => exact visibleOutcome_ite (Block.blind_quiet hs s.nowMs)
  case txSync => exact visibleOutcome_push (Block.blind_goto (by simp [hs]) (by decide))
  case txPid => exact visibleOutcome_push (Block.blind_afterPid hs s.nowMs)
  case txData => exact visibleOutcome_txData hs
  case txCks => exact visibleOutcome_push (Block.blind_goto (by simp [hs]) (by decide))
  case txFlush => exact visibleOutcome_ite (Block.blind_afterFlush hs s.nowMs)
  case rxPoll => exact visibleOutcome_rxPoll hs hr
  case drain => exact visibleOutcome_drain hs
  case wakeDelay =>
    unfold seqWakeDelay
    rw [State.visible_params, State.visible_deadline (.inr (.inr (.inl hs)))]
    exact visibleOutcome_ite (Block.blind_finish true)
  case failDelay =>
    unfold seqFailDelay
    rw [State.visible_params, State.visible_deadline (.inr (.inr (.inr hs)))]
    exact visibleOutcome_ite (Block.blind_finish false)
  case rxFlushing => exact visibleOutcome_rxFlushing s

/-! ### Every step -/

theorem Block.blind_reset {b : Block} : b.Blind Block.reset := by
  simp [Block.Blind, Block.visible_eq, Block.reset, Block.resetWith, Seq.visible, Reader.resting]

/-- A reset step shows no blanked field. -/
theorem State.visible_resetStep (s : State) : s.visible.resetStep.visible = s.resetStep.visible :=
  congrArg (fun b => { s.resetStep with block := b }) (Block.blind_reset (b := s.block))

theorem visibleOutcome_hostAccess (width : AccessWidth) (word : HostWord) (s : State) :
    visibleOutcome (hostAccess width word s.visible) = visibleOutcome (hostAccess width word s) := by
  unfold hostAccess
  split
  · split
    · exact visibleOutcome_exec _ s
    · rfl
  all_goals rfl

/-- What is left of an access during reset is the reset state and the value read. -/
theorem visibleOutcome_keepRead {r r' : State} {o o' : StepOutcome} (hr : r.visible = r'.visible)
    (ho : visibleOutcome o = visibleOutcome o') : visibleOutcome (keepRead r o) = visibleOutcome (keepRead r' o') := by
  cases o <;> cases o' <;> simp only [visibleOutcome, reduceCtorEq, Host.Outcome.next.injEq] at ho
  case next.next t t' =>
    have hdata : t.rdata = t'.rdata :=
      (congrArg State.rdata ho : t.visible.rdata = t'.visible.rdata)
    have hstate : ({ r with rdata := t'.rdata } : State).visible = ({ r' with rdata := t'.rdata } : State).visible :=
      congrArg (fun u : State => { u with rdata := t'.rdata }) hr
    simp only [keepRead, visibleOutcome, hdata, hstate]
  all_goals exact ho

theorem visibleOutcome_hostMove (width : AccessWidth) (word : HostWord) (s : State) :
    visibleOutcome (hostMove width word s.visible) = visibleOutcome (hostMove width word s) := by
  unfold hostMove
  rw [State.visible_rst]
  split
  · have hreset := s.visible_resetStep
    refine visibleOutcome_keepRead hreset ?_
    rw [← visibleOutcome_hostAccess, hreset, visibleOutcome_hostAccess]
  · exact visibleOutcome_hostAccess width word s

theorem visibleOutcome_envMove (s : State) : visibleOutcome (envMove s.visible) = visibleOutcome (envMove s) := by
  unfold envMove
  rw [State.visible_rst]
  split
  · exact congrArg Host.Outcome.next s.visible_resetStep
  · exact visibleOutcome_held s

/-- No move of any agent reads a blanked field. -/
theorem visibleOutcome_move (e : Event) (s : State) (hr : s.block.r.Legal) :
    visibleOutcome (move e s.visible) = visibleOutcome (move e s) := by
  cases e with
  | host width word => exact visibleOutcome_hostMove width word s
  | hostAt width write addr value =>
    dsimp only [move, hostMoveAt]
    rw [State.visible_params]
    split
    · exact visibleOutcome_hostMove _ _ s
    · rfl
  | sequencer =>
    dsimp only [move, blockMove]
    rw [State.visible_rst]
    split
    · exact congrArg Host.Outcome.next s.visible_resetStep
    · exact visibleOutcome_seqStep s hr
  | rst level => exact visibleOutcome_envMove { s with rst := level }
  | clock ms => exact visibleOutcome_envMove { s with nowMs := s.nowMs + ms }
  | txReady level => exact visibleOutcome_envMove (s.mapUart fun u => { u with txReady := level })
  | txStart => exact visibleOutcome_envMove (s.mapUart (Uart.startOne s.params.echo))
  | txDone => exact visibleOutcome_envMove (s.mapUart Uart.sendOne)
  | busStart b => exact visibleOutcome_envMove (s.mapUart (Uart.busStart b))
  | rxArrive draw overflow =>
    exact visibleOutcome_envMove (s.mapUart (Uart.receiveOne s.params.rxDepth draw overflow))

/-- Settles O48: a step of a state and a step of its blanked form show the same, so two states with one blanked form
step alike. -/
theorem unwrittenFieldsAreUnobservable : Obligations.UnwrittenFieldsAreUnobservable := by
  have blanked : ∀ s : State, s.Inv → visibleOutcome (step s.visible) = visibleOutcome (step s) :=
    fun s h => visibleOutcome_move s.nextMove s.takeMove h.block.reader
  intro s s' h h' hvis
  calc visibleOutcome (step s) = visibleOutcome (step s.visible) := (blanked s h).symm
    _ = visibleOutcome (step s'.visible) := by rw [hvis]
    _ = visibleOutcome (step s') := blanked s' h'

end Sys2Proof.Machine
end

section
/-! PROOFS. Safety: what leaves IDLE, what clears CMD_ERR, what changes DATA (10_state.md R25, R30, R36). -/

namespace Sys2Proof.Machine

/-! ### Which host accesses carry which instructions -/

/-- Only the transaction `wr CMD` starts a transaction of the block. -/
theorem txn_of_startsCommand {txn : BitVec 7} {v : Word} {i : Instr} (h : decode (.bus txn v) = .ok i)
    (hi : startsCommand i = true) : txn = mkTxn true 4 := by
  obtain ⟨n, ⟨rfl, rfl⟩ | ⟨rfl, rfl⟩⟩ := decode_bus_cases h
  · rw [eq_of_startsCommand_decodeWrite hi]
    rfl
  · exact absurd hi (by simp [startsCommand_decodeRead])

/-- Only the transaction `wr STATUS` is a write of STATUS, and it carries its value. -/
theorem txn_of_wrStatus {txn : BitVec 7} {v w : Word} (h : decode (.bus txn v) = .ok (.wrStatus w)) :
    txn = mkTxn true 8 ∧ v = w := by
  obtain ⟨n, ⟨rfl, hi⟩ | ⟨rfl, hi⟩⟩ := decode_bus_cases h
  · obtain ⟨rfl, hv⟩ := eq_of_decodeWrite_eq_wrStatus hi.symm
    exact ⟨rfl, hv⟩
  · exact absurd hi.symm (decodeRead_ne_wrStatus n w)

/-- Only the writes from offset 0x20 on are writes of DATA. -/
theorem txn_of_writesData {txn : BitVec 7} {v : Word} {i : Instr} (h : decode (.bus txn v) = .ok i)
    (hi : writesData i = true) : 0x60 ≤ txn.toNat := by
  obtain ⟨n, ⟨rfl, rfl⟩ | ⟨rfl, rfl⟩⟩ := decode_bus_cases h
  · have hdata : ∀ n : BitVec 4, 8 ≤ n.toNat → 0x60 ≤ (mkTxn true (n ++ 0#2)).toNat := by decide
    exact hdata n (le_of_writesData_decodeWrite hi)
  · exact absurd hi (by simp [writesData_decodeRead])

/-- A command line is no write of STATUS. -/
theorem decodeCmd_ne_wrStatus (w v : Word) : decodeCmd w ≠ .wrStatus v := by
  unfold decodeCmd
  dsimp only
  split <;> simp

/-- A command line is no write of DATA. -/
theorem writesData_decodeCmd (w : Word) : writesData (decodeCmd w) = false := by
  unfold decodeCmd
  dsimp only
  split <;> rfl

theorem mkTxn_inj {write write' : Bool} {off off' : BitVec 6} (h : mkTxn write off = mkTxn write' off') :
    write = write' ∧ off = off' :=
  ⟨by simpa using congrArg txnWrite h, by simpa using congrArg txnOffset h⟩

/-- Inside the window the low six bits of the distance from LIN_BASE give the address (R60). -/
theorem addr_of_offset {addr base : Word} (hwin : addr - base < 64) {off : BitVec 6}
    (h : (addr - base).setWidth 6 = off) : addr = base + off.setWidth 32 := by
  subst h
  bv_omega

/-- An access that starts a transaction writes CMD. -/
theorem Event.Runs.writesCmd {p : Params} {i : Instr} {e : Event} (h : e.Runs p i) (hi : startsCommand i = true) :
    e.WritesCmd p := by
  cases e with
  | host width word =>
    cases word with
    | bus txn v => exact txn_of_startsCommand h.2 hi
    | cmd w => trivial
  | hostAt width write addr v =>
    obtain ⟨-, hwin, hd⟩ := h
    obtain ⟨hw, hoff⟩ := mkTxn_inj (txn_of_startsCommand hd hi)
    exact ⟨hw, addr_of_offset hwin hoff⟩
  | _ => exact h.elim

/-- An access that runs the write of STATUS clears the flags at the ones of its value. -/
theorem Event.Runs.clearsFlag {p : Params} {v : Word} {e : Event} (h : e.Runs p (.wrStatus v)) {n : Nat}
    (hn : v.getLsbD n = true) : e.ClearsFlag p n := by
  cases e with
  | host width word =>
    cases word with
    | bus txn value =>
      obtain ⟨htxn, rfl⟩ := txn_of_wrStatus h.2
      exact ⟨htxn, hn⟩
    | cmd w => exact absurd (Except.ok.inj h.2) (decodeCmd_ne_wrStatus w v)
  | hostAt width write addr value =>
    obtain ⟨-, hwin, hd⟩ := h
    obtain ⟨htxn, rfl⟩ := txn_of_wrStatus hd
    obtain ⟨hw, hoff⟩ := mkTxn_inj htxn
    exact ⟨hw, addr_of_offset hwin hoff, hn⟩
  | _ => exact h.elim

/-- An access that writes DATA is a write at an offset from 0x20 on. -/
theorem Event.Runs.dataWrite {p : Params} {i : Instr} {e : Event} (h : e.Runs p i) (hi : writesData i = true) :
    (∃ txn v, e = .host .w32 (.bus txn v) ∧ 0x60 ≤ txn.toNat) ∨
    (∃ addr v, e = .hostAt .w32 true addr v ∧ 0x20 ≤ (addr - p.linBase).toNat) := by
  cases e with
  | host width word =>
    obtain ⟨rfl, hd⟩ := h
    cases word with
    | bus txn v => exact .inl ⟨txn, v, rfl, txn_of_writesData hd hi⟩
    | cmd w =>
      obtain rfl := Except.ok.inj hd
      exact absurd hi (by simp [writesData_decodeCmd])
  | hostAt width write addr v =>
    obtain ⟨rfl, hwin, hd⟩ := h
    have hoff : ∀ (write : Bool) (off : BitVec 6), 0x60 ≤ (mkTxn write off).toNat →
        write = true ∧ 0x20 ≤ off.toNat := by decide
    obtain ⟨rfl, hle⟩ := hoff _ _ (txn_of_writesData hd hi)
    have hmod : ((addr - p.linBase).setWidth 6).toNat ≤ (addr - p.linBase).toNat := by
      rw [BitVec.toNat_setWidth]
      exact Nat.mod_le _ _
    exact .inr ⟨addr, v, rfl, hle.trans hmod⟩
  | _ => exact h.elim

/-! ### What the operations leave -/

/-- What a write that waits for IDLE leaves alone in IDLE, it leaves alone. -/
theorem Block.whenIdle_keeps {α : Type} (field : Block → α) {b b' : Block} (h : field b' = field b) :
    field (b.whenIdle b') = field b := by
  unfold Block.whenIdle
  split
  exacts [rfl, h]

/-- A command never clears CMD_ERR (R201). -/
theorem Block.command_cmdErr {b : Block} (h : b.status.cmdErr = true) (op : Op) :
    (b.command op).status.cmdErr = true := by
  cases hb : b.busy
  · rw [Block.command_idle hb]
    unfold Block.accept
    dsimp only
    split <;> exact h
  · rw [Block.command_busy hb]
    rfl

theorem Block.command_data (b : Block) (op : Op) : (b.command op).data = b.data := by
  cases hb : b.busy
  · rw [Block.command_idle hb]
    unfold Block.accept
    dsimp only
    split <;> rfl
  · rw [Block.command_busy hb]
    rfl

/-- An instruction that starts no command leaves the sequencer. -/
theorem Block.Written.f_eq {b b' : Block} {i : Instr} (h : b.Written i b') (hi : startsCommand i = false) :
    b'.f = b.f := by
  cases h with
  | command op hc => exact absurd (hi.symm.trans hc) nofun
  | fid => exact Block.whenIdle_keeps Block.f rfl
  | len => exact Block.whenIdle_keeps Block.f rfl
  | baud => exact Block.whenIdle_keeps Block.f rfl
  | data => exact Block.whenIdle_keeps Block.f rfl
  | _ => rfl

/-- An instruction that clears CMD_ERR is a write of STATUS with a 1 in bit 7 (R30). -/
theorem Block.Written.cmdErr {b b' : Block} {i : Instr} (h : b.Written i b') (hset : b.status.cmdErr = true)
    (hclear : b'.status.cmdErr = false) : ∃ v : Word, i = .wrStatus v ∧ v.getLsbD 7 = true := by
  have keeps : b'.status.cmdErr = true → ∃ v : Word, i = .wrStatus v ∧ v.getLsbD 7 = true :=
    fun hkept => absurd (hclear.symm.trans hkept) nofun
  have whenIdle : ∀ {b₁ : Block}, b₁.status = b.status → (b.whenIdle b₁).status.cmdErr = true :=
    fun hst => (congrArg Status.cmdErr (Block.whenIdle_keeps Block.status hst)).trans hset
  cases h with
  | status v =>
    refine ⟨v, rfl, ?_⟩
    simpa [Status.clearFlags, w1c, hset] using hclear
  | kept => exact keeps hset
  | refused => exact keeps rfl
  | command op => exact keeps (Block.command_cmdErr hset op)
  | ctrl v => exact keeps hset
  | fid => exact keeps (whenIdle rfl)
  | len => exact keeps (whenIdle rfl)
  | baud => exact keeps (whenIdle rfl)
  | data => exact keeps (whenIdle rfl)

/-- An instruction that changes DATA is a write of DATA in IDLE (R36, R66). -/
theorem Block.Written.data_ne {b b' : Block} {i : Instr} (h : b.Written i b') (hne : b'.data ≠ b.data) :
    b.busy = false ∧ writesData i = true := by
  cases h with
  | data g hi =>
    refine ⟨?_, hi⟩
    cases hb : b.busy
    · rfl
    · exact absurd (congrArg Block.data (Block.whenIdle_busy hb _)) hne
  | command op => exact absurd (b.command_data op) hne
  | fid => exact (hne (Block.whenIdle_keeps Block.data rfl)).elim
  | len => exact (hne (Block.whenIdle_keeps Block.data rfl)).elim
  | baud => exact (hne (Block.whenIdle_keeps Block.data rfl)).elim
  | _ => exact absurd rfl hne

/-- The sequencer's rules leave CMD_ERR (R201). -/
theorem Block.Advances.cmdErr {now : Word} {b b' : Block} (h : b.Advances now b') :
    b'.status.cmdErr = b.status.cmdErr := by
  cases h with
  | pidPushed => unfold Block.afterPid; split_ifs <;> rfl
  | flushed => unfold Block.afterFlush; split_ifs <;> rfl
  | completed => unfold Block.complete; split_ifs <;> rfl
  | timedOut => unfold Block.timeOut; dsimp only; split_ifs <;> rfl
  | _ => rfl

/-- A rule of the sequencer that changes DATA is the completion of a read (R211). -/
theorem Block.Advances.data_ne {now : Word} {b b' : Block} (h : b.Advances now b') (hne : b'.data ≠ b.data) :
    b.f.state = .rxPoll ∧ b.f.op = .read ∧ b.r.complete = true ∧
      b'.status.success = true ∧ b'.status.done = true := by
  cases h with
  | completed hs hc =>
    unfold Block.complete at hne ⊢
    split_ifs at hne ⊢ with hop
    · exact ⟨hs, hop, hc, rfl, rfl⟩
    all_goals exact absurd rfl hne
  | pidPushed => unfold Block.afterPid at hne; split_ifs at hne <;> exact absurd rfl hne
  | flushed => unfold Block.afterFlush at hne; split_ifs at hne <;> exact absurd rfl hne
  | timedOut => unfold Block.timeOut at hne; dsimp only at hne; split_ifs at hne <;> exact absurd rfl hne
  | _ => exact absurd rfl hne

/-! ### The statements -/

/-- Settles O38: neither the reset, the environment nor the sequencer leaves IDLE, and an instruction that does starts
a command. -/
theorem onlyCmdWriteLeavesIdle : Obligations.OnlyCmdWriteLeavesIdle := by
  intro s t hidle hstep hbusy
  have left : t.block.busy ≠ s.block.busy := by simp [hidle, hbusy]
  obtain ⟨-, v, rfl⟩ | ⟨hr, i, hruns, hx⟩ | ⟨-, hq⟩ | rfl := step_cases hstep
  · simp at hbusy
  · refine ⟨hr, hruns.writesCmd ?_⟩
    by_contra hi
    have hf : t.block.f = s.block.f := (exec_written hx).f_eq (by simpa using hi)
    exact left (by rw [Block.busy, Block.busy, hf])
  · rw [seqStep_idle (s := s.takeMove) ((Block.busy_eq_false_iff _).mp hidle)] at hq
    obtain rfl := Host.Outcome.next.inj hq
    exact (left rfl).elim
  · exact (left (by simp)).elim

/-- Settles O39: an instruction that clears CMD_ERR is a write of STATUS, and nothing else but a reset clears it. -/
theorem cmdErrStaysUntilCleared : Obligations.CmdErrStaysUntilCleared := by
  intro s t hset hstep hclear
  have cleared : t.block.status.cmdErr ≠ s.block.status.cmdErr := by simp [hset, hclear]
  obtain ⟨hr, -⟩ | ⟨-, i, hruns, hx⟩ | ⟨-, hq⟩ | rfl := step_cases hstep
  · exact .inl hr
  · obtain ⟨v, rfl, hv⟩ := (exec_written hx).cmdErr hset hclear
    exact .inr (hruns.clearsFlag hv)
  · exact (cleared (seqStep_advances hq).cmdErr).elim
  · exact (cleared (by simp)).elim

/-- Settles O40: an instruction that changes DATA writes it in IDLE, a rule of the sequencer that does completes a
read, and nothing else does but a reset. -/
theorem dataChangesOnlyByWriteReadOrReset : Obligations.DataChangesOnlyByWriteReadOrReset := by
  intro s t hstep hne
  obtain ⟨hr, -⟩ | ⟨-, i, hruns, hx⟩ | ⟨-, hq⟩ | rfl := step_cases hstep
  · exact .inl hr
  · obtain ⟨hidle, hi⟩ := (exec_written hx).data_ne hne
    exact .inr (.inl ⟨hidle, hruns.dataWrite hi⟩)
  · exact .inr (.inr ((seqStep_advances hq).data_ne hne))
  · exact absurd (by simp) hne

end Sys2Proof.Machine
end

section
/-! PROOFS. One move, one effect: the host's access, the block's own move, and the moves of the environment
(10_state.md R20, R23, R40). -/

namespace Sys2Proof.Machine

/-- Settles O4: the access reaches the instruction its word decodes to, and nothing is added around it. -/
theorem stepRunsDecodedInstruction : Obligations.StepRunsDecodedInstruction := by
  intro s word i rest hr hp hd _
  have hrun : hostMove .w32 word { s with script := rest } = hostAccess .w32 word { s with script := rest } :=
    hostMove_running (s := { s with script := rest }) hr _ _
  rw [step_pending hp, move, hrun]
  simp only [hostAccess, hd]

/-- With the sequencer's move to come, or none, the block moves by itself. -/
theorem step_blockMove {s : State} {rest : List Event}
    (hp : s.pending = .sequencer :: rest ∨ (s.pending = [] ∧ rest = [])) :
    step s = blockMove { s with script := rest } := by
  obtain hp | ⟨hp, rfl⟩ := hp
  · exact step_pending hp
  · exact step_alone hp

/-- Settles O5: the block's own move is a reset step or a sequencer step, as `rst` says. -/
theorem stepRunsSequencerOrReset : Obligations.StepRunsSequencerOrReset := by
  intro s rest hp
  rw [step_blockMove hp]
  exact ⟨fun hr => blockMove_running hr, fun hr => blockMove_reset hr⟩

/-! ### The moves of the UART and of the other nodes -/

theorem received_of_arrives {how : ArrivalDraw} {b c : Byte} (h : (how = .intact ∧ c = b) ∨ how = .damaged c) :
    how.received b = some c := by
  obtain ⟨rfl, rfl⟩ | rfl := h <;> rfl

/-- An arriving byte joins the FIFO as R40 lets it. -/
theorem arrive_movesTo (depth : Nat) (c : Byte) (draw : OverflowDraw) (u : Uart) :
    ∃ fifo, u.arrive depth c draw = { u with rxFifo := fifo } ∧
      (u.rxFifo.length < depth → fifo = u.rxFifo ++ [c]) ∧
      (depth ≤ u.rxFifo.length → fifo.length ≤ depth ∧ fifo.Sublist (u.rxFifo ++ [c])) := by
  by_cases hroom : u.rxFifo.length < depth
  · exact ⟨_, arrive_room hroom c draw, fun _ => rfl, fun hfull => absurd hroom (Nat.not_lt.mpr hfull)⟩
  · refine ⟨(keptBytes draw.lost (u.rxFifo ++ [c])).take depth, if_neg hroom, fun h => absurd h hroom, fun _ => ?_⟩
    exact ⟨List.length_take_le _ _, (List.take_sublist _ _).trans (keptBytes_sublist _ _)⟩

/-- The receiver takes the byte that started first, lost, damaged or intact. -/
theorem receiveOne_movesTo (p : Params) (how : ArrivalDraw) (draw : OverflowDraw) (u : Uart) :
    u.MovesTo p (.rxArrive how draw) (u.receiveOne p.rxDepth how draw) := by
  refine ⟨fun hbus => by rw [Uart.receiveOne, hbus], fun b bus hbus => ⟨?_, fun c hc => ?_⟩⟩
  · rintro rfl
    exact receiveOne_lost hbus
  · rw [receiveOne_some hbus (received_of_arrives hc)]
    exact arrive_movesTo p.rxDepth c draw { u with onBus := bus }

/-- The oldest waiting character starts when none is going out, with its echo. -/
theorem startOne_movesTo (p : Params) (u : Uart) : u.MovesTo p .txStart (u.startOne p.echo) := by
  refine ⟨fun c queue ha hq => ?_, fun hno => ?_⟩
  · cases he : p.echo <;> simp [Uart.startOne, ha, hq, Uart.busStart]
  · obtain hu | ⟨ha, c, rest, hq, -⟩ := startOne_cases p.echo u
    · exact hu
    · obtain hact | hqueue := hno
      · exact absurd ha hact
      · exact absurd (hq.symm.trans hqueue) nofun

theorem sendOne_movesTo (p : Params) (u : Uart) : u.MovesTo p .txDone u.sendOne :=
  ⟨fun c ha => by rw [Uart.sendOne, ha], fun ha => by rw [Uart.sendOne, ha]⟩

/-- With `rst` at 0 a move of the UART or of another node changes the UART alone, as its rule says. -/
theorem step_ofUart {s : State} {e : Event} {rest : List Event} (hr : s.rst = false) (hp : s.pending = e :: rest)
    (he : e.OfUart) :
    ∃ u, s.uart.MovesTo s.params e u ∧ step s = .next { s with script := rest, uart := u } := by
  have envStep : ∀ g : Uart → Uart,
      envMove (({ s with script := rest } : State).mapUart g) =
        .next { s with script := rest, uart := g s.uart } := fun _ => envMove_running hr
  rw [step_pending hp]
  cases e with
  | txReady level => exact ⟨_, rfl, envStep _⟩
  | txStart => exact ⟨_, startOne_movesTo s.params s.uart, envStep _⟩
  | txDone => exact ⟨_, sendOne_movesTo s.params s.uart, envStep _⟩
  | busStart b => exact ⟨_, rfl, envStep (Uart.busStart b)⟩
  | rxArrive how draw => exact ⟨_, receiveOne_movesTo s.params how draw s.uart, envStep _⟩
  | _ => exact he.elim

/-- With `rst` at 0 a clock move adds to `now_ms` mod 2^32 (R23). -/
theorem step_clock {s : State} {ms : Word} {rest : List Event} (hr : s.rst = false)
    (hp : s.pending = .clock ms :: rest) :
    step s = .next { s with script := rest, nowMs := BitVec.ofNat 32 (s.nowMs.toNat + ms.toNat) } := by
  rw [step_pending hp, BitVec.ofNat_add, BitVec.ofNat_toNat, BitVec.ofNat_toNat, BitVec.setWidth_eq,
    BitVec.setWidth_eq]
  exact envMove_running hr

/-- Settles O60: each move of the environment is its rule, made on the UART or the clock alone. -/
theorem environmentMovesLeaveTheBlock : Obligations.EnvironmentMovesLeaveTheBlock := by
  refine ⟨fun s rest hr => ⟨fun ms hp => step_clock hr hp, fun e hp he => step_ofUart hr hp he⟩, ?_⟩
  intro s rest hp
  rw [step_pending hp]
  exact envMove_running rfl

/-! ### The order of arrivals -/

/-- Every subsequence is kept by some marks. -/
theorem exists_keptBytes_eq {xs ys : List Byte} (h : xs.Sublist ys) : ∃ ms, keptBytes ms ys = xs := by
  induction h with
  | slnil => exact ⟨[], rfl⟩
  | cons y _ ih =>
    obtain ⟨ms, hms⟩ := ih
    exact ⟨true :: ms, hms⟩
  | cons_cons y _ ih =>
    obtain ⟨ms, hms⟩ := ih
    exact ⟨false :: ms, congrArg (y :: ·) hms⟩

theorem runSteps_of_step {s t : State} (h : step s = .next t) (k : Nat) : runSteps (k + 1) s = runSteps k t := by
  rw [runSteps, h]

/-- Bytes start on the bus one behind the other. -/
theorem runSteps_busStarts (bs : List Byte) {s : State} {rest : List Event} (k : Nat) (hr : s.rst = false)
    (hs : s.script = busStarts bs ++ rest) :
    runSteps (bs.length + k) s =
      runSteps k { s with script := rest, uart := { s.uart with onBus := s.uart.onBus ++ bs } } := by
  induction bs generalizing s with
  | nil =>
    obtain rfl : s.script = rest := hs
    simp
  | cons b bs ih =>
    have hstep : step s = .next { s with
        script := busStarts bs ++ rest, uart := { s.uart with onBus := s.uart.onBus ++ [b] } } := by
      rw [step_script hs]
      exact envMove_running hr
    rw [List.length_cons, Nat.add_right_comm, runSteps_of_step hstep, ih]
    · simp
    · exact hr
    · rfl

/-- With room in the FIFO the byte that started first goes to its end. -/
theorem step_rxArrive_room {s : State} {how : ArrivalDraw} {draw : OverflowDraw} {b c : Byte} {bus : List Byte}
    {rest : List Event} (hr : s.rst = false) (hs : s.script = .rxArrive how draw :: rest)
    (hbus : s.uart.onBus = b :: bus) (hc : how.received b = some c)
    (hroom : s.uart.rxFifo.length < s.params.rxDepth) :
    step s = .next { s with
      script := rest, uart := { s.uart with onBus := bus, rxFifo := s.uart.rxFifo ++ [c] } } := by
  have hu : s.uart.receiveOne s.params.rxDepth how draw =
      { s.uart with onBus := bus, rxFifo := s.uart.rxFifo ++ [c] } := by
    rw [receiveOne_some hbus hc]
    exact arrive_room (u := { s.uart with onBus := bus }) hroom c draw
  rw [step_script hs, ← hu]
  exact envMove_running hr

/-- The bytes on the bus arrive in their order while the FIFO has room. -/
theorem runSteps_arriveIntact (bus : List Byte) {s : State} (hr : s.rst = false) (hbus : s.uart.onBus = bus)
    (hs : s.script = List.replicate bus.length arriveIntact)
    (hroom : s.uart.rxFifo.length + bus.length ≤ s.params.rxDepth) :
    ∃ t, runSteps bus.length s = .next t ∧ t.uart.onBus = [] ∧ t.uart.rxFifo = s.uart.rxFifo ++ bus := by
  induction bus generalizing s with
  | nil => exact ⟨s, rfl, hbus, (List.append_nil _).symm⟩
  | cons b bus ih =>
    rw [List.length_cons] at hroom
    have hstep := step_rxArrive_room (c := b) hr hs hbus rfl (by omega)
    obtain ⟨t, ht, hempty, hfifo⟩ := ih (s := { s with
      script := List.replicate bus.length arriveIntact
      uart := { s.uart with onBus := bus, rxFifo := s.uart.rxFifo ++ [b] } }) hr rfl rfl (by simp; omega)
    rw [List.length_cons, runSteps_of_step hstep]
    exact ⟨t, ht, hempty, by simp [hfifo]⟩

/-- Bytes that start behind those on the bus arrive behind them. -/
theorem runSteps_busStarts_arriveIntact (later : List Byte) {s : State} (hr : s.rst = false)
    (hs : s.script = busStarts later ++ List.replicate (s.uart.onBus ++ later).length arriveIntact)
    (hroom : s.uart.rxFifo.length + (s.uart.onBus ++ later).length ≤ s.params.rxDepth) :
    ∃ t, runSteps (later.length + (s.uart.onBus ++ later).length) s = .next t ∧ t.uart.onBus = [] ∧
      t.uart.rxFifo = s.uart.rxFifo ++ (s.uart.onBus ++ later) := by
  rw [runSteps_busStarts later _ hr hs]
  exact runSteps_arriveIntact (s.uart.onBus ++ later) hr rfl rfl hroom

/-- With ECHO the character that starts on the bus is there behind every byte that started before (R72). -/
theorem step_txStart_echo {s : State} {c : TxChar} {queue : List TxChar} {rest : List Event} (hr : s.rst = false)
    (hecho : s.params.echo = true) (ha : s.uart.txActive = none) (hq : s.uart.txQueue = c :: queue)
    (hs : s.script = .txStart :: rest) :
    ∃ t, step s = .next t ∧ t.rst = false ∧ t.params = s.params ∧ t.script = rest ∧
      t.uart.onBus = s.uart.onBus ++ [c.byte] ∧ t.uart.rxFifo = s.uart.rxFifo := by
  have hbus : (s.uart.startOne s.params.echo).onBus = s.uart.onBus ++ [c.byte] := by
    simp [Uart.startOne, ha, hq, hecho, Uart.busStart]
  rw [step_script hs]
  exact ⟨_, envMove_running hr, hr, rfl, rfl, hbus, startOne_rxFifo _ _⟩

/-- Settles O52: an arrival is the receiver's rule, every subsequence has its marks, and an echo joins the bus between
the bytes before it and the bytes after it. -/
theorem receiveFifoKeepsArrivalOrder : Obligations.ReceiveFifoKeepsArrivalOrder := by
  refine ⟨?_, ?_, ?_⟩
  · intro s how draw rest hr hp
    obtain ⟨u, ⟨hempty, hbyte⟩, hstep⟩ := step_ofUart hr hp trivial
    refine ⟨fun hbus => by rw [hstep, hempty hbus], fun b bus hbus => ?_⟩
    obtain ⟨hlost, harrives⟩ := hbyte b bus hbus
    refine ⟨fun hl => by rw [hstep, hlost hl], fun c hc => ?_⟩
    obtain ⟨fifo, rfl, hfifo⟩ := harrives c hc
    exact ⟨fifo, hstep, hfifo⟩
  · intro s how b c bus fifo rest hr hbus hc hfull hfits hsub
    obtain ⟨ms, hms⟩ := exists_keptBytes_eq hsub
    have hu : s.uart.receiveOne s.params.rxDepth how ⟨ms⟩ = { s.uart with onBus := bus, rxFifo := fifo } := by
      rw [receiveOne_some hbus (received_of_arrives hc), Uart.arrive, if_neg (Nat.not_lt.mpr hfull), hms,
        List.take_of_length_le hfits]
    refine ⟨⟨ms⟩, ?_⟩
    rw [step_script (e := .rxArrive how ⟨ms⟩) (rest := rest) rfl, ← hu]
    exact envMove_running hr
  · intro s c queue later hr hecho ha hq hroom script
    have hbytes : (s.uart.onBus ++ [c.byte] ++ later).length = s.uart.onBus.length + 1 + later.length := by
      rw [List.length_append, List.length_append, List.length_singleton]
    have hlength : script.length = later.length + (s.uart.onBus ++ [c.byte] ++ later).length + 1 := by
      simp [script, busStarts]
      omega
    obtain ⟨u, hstep, hru, hparams, hscript, hbus, hfifo⟩ :=
      step_txStart_echo (s := { s with script := script }) hr hecho ha hq rfl
    obtain ⟨t, ht, hempty, harrived⟩ := runSteps_busStarts_arriveIntact later hru
      (by rw [hscript, hbus, hbytes]; rfl) (by rw [hparams, hfifo, hbus, hbytes]; dsimp only; omega)
    rw [hbus] at ht harrived
    refine ⟨t, ?_, hempty, ?_⟩
    · rw [hlength, runSteps_of_step hstep]
      exact ht
    · rw [harrived, hfifo]
      simp

end Sys2Proof.Machine
end

section
/-! PROOFS. The register window: what each read returns and what each write sets (10_state.md R27 to R36,
20_memory.md R63 to R66). -/

namespace Sys2Proof.Machine

/-! ### The words of the registers -/

/-- In an appended word the left part counts above the right one. -/
theorem toNat_append_eq_add {n m : Nat} (x : BitVec n) (y : BitVec m) :
    (x ++ y).toNat = x.toNat * 2 ^ m + y.toNat := by
  rw [BitVec.toNat_append, ← Nat.shiftLeft_add_eq_or_of_lt y.isLt, Nat.shiftLeft_eq]

@[simp] theorem bit1_toNat (x : Bool) : (bit1 x).toNat = x.toNat := BitVec.toNat_ofBool x

theorem Block.busy_toNat (b : Block) : b.busy.toNat = if b.f.state = .idle then 0 else 1 := by
  by_cases h : b.f.state = .idle <;> simp [Block.busy, h]

/-- CTRL is the sum of its bits (R27). -/
theorem Block.ctrlWord_eq_ofNat (b : Block) :
    b.ctrlWord = BitVec.ofNat 32 (b.ctrl.verify.toNat + 2 * b.ctrl.drain.toNat + 4 * b.ctrl.irqEn.toNat) := by
  rw [← BitVec.setWidth_eq b.ctrlWord, ← BitVec.ofNat_toNat]
  congr 1
  simp only [Block.ctrlWord, toNat_append_eq_add, bit1_toNat, BitVec.toNat_ofNat]
  omega

/-- STATUS is the sum of its fields, each at its place (R29, R30). -/
theorem Block.statusWord_eq_ofNat (b : Block) :
    b.statusWord = BitVec.ofNat 32
      ((if b.f.state = .idle then 0 else 1) + 2 * b.status.done.toNat
        + 4 * b.status.success.toNat + 8 * b.status.timeout.toNat
        + 16 * b.status.cksErr.toNat + 32 * b.status.rbErr.toNat
        + 64 * b.status.lenErr.toNat + 128 * b.status.cmdErr.toNat
        + 256 * b.r.state.code.toNat + 2048 * b.status.cfgErr.toNat
        + 4096 * b.r.count.toNat + 65536 * b.f.state.code.toNat) := by
  rw [← b.busy_toNat, ← BitVec.setWidth_eq b.statusWord, ← BitVec.ofNat_toNat]
  congr 1
  simp only [Block.statusWord, toNat_append_eq_add, bit1_toNat, BitVec.toNat_ofNat]
  omega

/-! ### The reads -/

/-- Settles O10: each read returns the word of its register, which is the number its fields make. -/
theorem readsReturnTheirRegister : Obligations.ReadsReturnTheirRegister := by
  intro s
  have returns : ∀ {v w : Word}, v = w →
      (.next (s.returnRead v) : StepOutcome) = .next { s with rdata := some w } := by
    rintro v w rfl
    rfl
  have field : ∀ {n : Nat} (x : BitVec n), x.setWidth 32 = BitVec.ofNat 32 x.toNat :=
    fun x => (BitVec.ofNat_toNat 32 x).symm
  exact ⟨returns s.block.ctrlWord_eq_ofNat, rfl, returns s.block.statusWord_eq_ofNat,
    returns (field _), returns (field _), returns (field _), returns (field _), rfl,
    returns (field _), returns (field _), returns (field _), returns (field _),
    returns (field _), returns (field _), returns (field _), returns (field _)⟩

/-! ### The writes in IDLE -/

/-- An operation on the block, by what it makes of the block. -/
theorem next_mapBlock {s : State} {g : Block → Block} {b : Block} (h : g s.block = b) :
    (.next (s.mapBlock g) : StepOutcome) = .next { s with block := b } := by
  rw [State.mapBlock, h]

theorem Block.writeCtrl_idle {b : Block} (h : b.busy = false) (v : Word) :
    b.writeCtrl v = { b with ctrl := ⟨v.getLsbD 0, v.getLsbD 1, v.getLsbD 2⟩ } := by
  simp [Block.writeCtrl, h]

/-- Settles O12: a write is made, and it sets the low bits of the value in its field. -/
theorem writesWhileIdleSetTheirField : Obligations.WritesWhileIdleSetTheirField := by
  intro s v h
  have made : ∀ g : Block → Block,
      (.next (s.mapBlock fun b => b.whenIdle (g b)) : StepOutcome) = .next { s with block := g s.block } :=
    fun _ => next_mapBlock (Block.whenIdle_idle h _)
  refine ⟨next_mapBlock (Block.writeCtrl_idle h v), ?_⟩
  simp only [BitVec.ofNat_toNat]
  exact ⟨made _, made _, made _, made _, made _, made _, made _, made _, made _, made _, made _⟩

/-! ### The writes while BUSY -/

theorem Block.writeCtrl_busy {b : Block} (h : b.busy = true) (v : Word) :
    b.writeCtrl v = { b with ctrl := { b.ctrl with irqEn := v.getLsbD 2 } } := by
  simp [Block.writeCtrl, h]

/-- While BUSY an instruction reaches the flags and IRQ_EN alone (R66). -/
theorem Block.Written.of_busy {b b' : Block} {i : Instr} (h : b.Written i b') (hb : b.busy = true) :
    ∃ st irq, b' = { b with status := st, ctrl := { b.ctrl with irqEn := irq } } := by
  have lost : ∀ b₁ : Block, ∃ st irq,
      b.whenIdle b₁ = { b with status := st, ctrl := { b.ctrl with irqEn := irq } } :=
    fun b₁ => ⟨_, _, Block.whenIdle_busy hb b₁⟩
  cases h with
  | kept => exact ⟨_, _, rfl⟩
  | refused => exact ⟨_, _, rfl⟩
  | command op => exact ⟨_, _, Block.command_busy hb op⟩
  | status v => exact ⟨_, _, rfl⟩
  | ctrl v => exact ⟨_, _, Block.writeCtrl_busy hb v⟩
  | fid => exact lost _
  | len => exact lost _
  | baud => exact lost _
  | data => exact lost _

/-- OPC is the command word mod 16 (R96). -/
theorem cmdOpcode_toNat (v : Word) : (cmdOpcode v).toNat = v.toNat % 16 := by
  simp [cmdOpcode]

/-- While BUSY every write of CMD but NOP is refused, reserved or not (R200). -/
theorem execWrCmd_busy {v : Word} {s : State} (hv : v.toNat % 16 ≠ 0) (h : s.block.busy = true) :
    execWrCmd v s = .next (s.mapBlock Block.refuse) := by
  have refused : ∀ op, (.next (s.mapBlock (Block.command op)) : StepOutcome) = .next (s.mapBlock Block.refuse) :=
    fun op => next_mapBlock (Block.command_busy h op)
  unfold execWrCmd
  dsimp only
  split
  case h_1 hop => exact absurd ((cmdOpcode_toNat v).symm.trans hop) hv
  case h_2 | h_3 | h_4 | h_5 => exact refused _
  all_goals rfl

/-- Settles O13: while BUSY an instruction reaches the flags and IRQ_EN alone, and each write is lost, made or
refused. -/
theorem writesWhileBusyAreFrozen : Obligations.WritesWhileBusyAreFrozen := by
  intro s v h
  have frozen : ∀ (i : Instr) (t : State), exec i s = .next t →
      t.block.ctrl.verify = s.block.ctrl.verify ∧ t.block.ctrl.drain = s.block.ctrl.drain ∧
      t.block.fid = s.block.fid ∧ t.block.len = s.block.len ∧ t.block.baud = s.block.baud ∧
      t.block.data = s.block.data := by
    intro i t hx
    obtain ⟨st, irq, hblock⟩ := (exec_written hx).of_busy h
    rw [hblock]
    exact ⟨rfl, rfl, rfl, rfl, rfl, rfl⟩
  have lost : ∀ g : Block → Block, (.next (s.mapBlock fun b => b.whenIdle (g b)) : StepOutcome) = .next s :=
    fun _ => next_mapBlock (Block.whenIdle_busy h _)
  exact ⟨frozen, lost _, lost _, lost _, lost _, lost _, lost _, lost _, lost _, lost _, lost _, lost _,
    next_mapBlock (Block.writeCtrl_busy h v), rfl,
    fun hv => execWrCmd_busy hv h⟩

/-! ### The writes that no field takes, and the acknowledgement -/

theorem w1c_eq_ite (v : Word) (n : Nat) (flag : Bool) : w1c v n flag = if v.getLsbD n then false else flag := by
  cases hv : v.getLsbD n <;> simp [w1c, hv]

/-- Settles O14: PID and CKS take no value, and each flag is cleared by its own bit. -/
theorem readOnlyAndClearWrites : Obligations.ReadOnlyAndClearWrites := by
  intro s v
  simp only [← w1c_eq_ite]
  exact ⟨rfl, rfl, rfl⟩

end Sys2Proof.Machine
end

section
/-! PROOFS. The UART ports: one byte a step, in order (20_memory.md R71 to R74). -/

namespace Sys2Proof.Machine

/-! ### The sequencer at the ports -/

/-- A sequencer step leaves the transmit queue, or pushes one byte behind it when `tx_ready` is 1 (R73). -/
theorem seqStep_txQueue {s t : State} (h : seqStep s = .next t) :
    t.uart.txQueue = s.uart.txQueue ∨
    (s.uart.txReady = true ∧ ∃ b, t.uart.txQueue = s.uart.txQueue ++ [⟨b, s.block.baudOut, false⟩]) := by
  obtain ⟨b, rfl⟩ | ⟨byte, b, hr, rfl⟩ | ⟨byte, rest, b, -, rfl⟩ := seqStep_shape h
  exacts [.inl rfl, .inr ⟨hr, byte, rfl⟩, .inl rfl]

/-- It leaves the receive FIFO, or pops the oldest byte and pushes none (R71). -/
theorem seqStep_rxFifo {s t : State} (h : seqStep s = .next t) :
    t.uart.rxFifo = s.uart.rxFifo ∨
    (t.uart.txQueue = s.uart.txQueue ∧ ∃ b, s.uart.rxFifo = b :: t.uart.rxFifo) := by
  obtain ⟨b, rfl⟩ | ⟨byte, b, -, rfl⟩ | ⟨byte, rest, b, hf, rfl⟩ := seqStep_shape h
  exacts [.inl rfl, .inl rfl, .inr ⟨rfl, byte, hf⟩]

/-- Everything else around the block is the other agents' (R20). -/
theorem seqStep_environment {s t : State} (h : seqStep s = .next t) :
    t.nowMs = s.nowMs ∧ t.rst = s.rst ∧ t.rdata = s.rdata ∧ t.params = s.params ∧
    t.script = s.script ∧ t.forever = s.forever ∧ t.uart.txReady = s.uart.txReady ∧
    t.uart.txActive = s.uart.txActive ∧ t.uart.onBus = s.uart.onBus ∧ t.uart.line = s.uart.line := by
  obtain ⟨b, rfl⟩ | ⟨byte, b, -, rfl⟩ | ⟨byte, rest, b, -, rfl⟩ := seqStep_shape h <;>
    exact ⟨rfl, rfl, rfl, rfl, rfl, rfl, rfl, rfl, rfl, rfl⟩

/-- Only the two flush states of the break change the rate (R140, R142). -/
theorem Block.Advances.baudOut_ne {now : Word} {b b' : Block} (h : b.Advances now b')
    (hne : b'.baudOut ≠ b.baudOut) : b.f.state = .brkFlush1 ∨ b.f.state = .brkFlush2 := by
  cases h with
  | halved hs => exact .inl hs
  | quiet hs => exact .inr hs
  | restored hs => exact .inr hs
  | pidPushed => unfold Block.afterPid at hne; split_ifs at hne <;> exact absurd rfl hne
  | flushed => unfold Block.afterFlush at hne; split_ifs at hne <;> exact absurd rfl hne
  | completed => unfold Block.complete at hne; split_ifs at hne <;> exact absurd rfl hne
  | timedOut => unfold Block.timeOut at hne; dsimp only at hne; split_ifs at hne <;> exact absurd rfl hne
  | _ => exact absurd rfl hne

theorem seqStep_brkFlush1 {s : State} (hs : s.block.f.state = .brkFlush1) : seqStep s = seqBrkFlush1 s := by
  rw [seqStep, hs]

theorem seqStep_brkFlush2 {s : State} (hs : s.block.f.state = .brkFlush2) : seqStep s = seqBrkFlush2 s := by
  rw [seqStep, hs]

theorem seqStep_txSync {s : State} (hs : s.block.f.state = .txSync) : seqStep s = seqTxSync s := by
  rw [seqStep, hs]

/-- Settles O41: the two states that change the rate hold until the transmitter is empty, and a push waits for
`tx_ready`. -/
theorem sequencerChangesRateOnlyWhenEmpty : Obligations.SequencerChangesRateOnlyWhenEmpty := by
  intro s t h
  refine ⟨fun hne => ?_, fun hne => (seqStep_txQueue h).resolve_left hne⟩
  obtain hs | hs := (seqStep_advances h).baudOut_ne hne
  · obtain ⟨-, rfl⟩ | ⟨he, -⟩ := seqBrkFlush1_cases ((seqStep_brkFlush1 hs).symm.trans h)
    exacts [absurd rfl hne, he]
  · obtain ⟨-, rfl⟩ | ⟨he, -, -⟩ | ⟨he, -, -⟩ := seqBrkFlush2_cases ((seqStep_brkFlush2 hs).symm.trans h)
    exacts [absurd rfl hne, he, he]

/-- Settles O42: the pushed byte is the last of the queue, which is not empty then. -/
theorem txPushQueuesAtTheCurrentRate : Obligations.TxPushQueuesAtTheCurrentRate := by
  intro s b
  refine ⟨rfl, ?_⟩
  simp [State.txEmpty]

/-! ### The bytes pushed so far -/

/-- A character that starts or leaves moves on in the transmitter, and no other move of the environment reaches it. -/
theorem Event.change_pushed (e : Event) (s : State) : (e.change s).pushed = s.pushed := by
  cases e with
  | txStart =>
    unfold State.pushed Event.change
    obtain hu | ⟨ha, c, rest, hq, hu⟩ := startOne_cases s.params.echo s.uart
    · rw [State.mapUart_uart, hu]
    · rw [State.mapUart_uart, hu, ha, hq]
      simp
  | txDone =>
    unfold State.pushed Event.change
    obtain ⟨-, hu⟩ | ⟨c, ha, hu⟩ := sendOne_cases s.uart
    · rw [State.mapUart_uart, hu]
    · rw [State.mapUart_uart, hu, ha]
      simp
  | rxArrive draw overflow =>
    unfold State.pushed Event.change
    obtain ⟨-, hu⟩ | ⟨b, rest, fifo, -, hu⟩ := receiveOne_cases s.params.rxDepth draw overflow s.uart <;>
      rw [State.mapUart_uart, hu]
  | _ => rfl

theorem Event.change_pushedBytes (e : Event) (s : State) : (e.change s).pushedBytes = s.pushedBytes :=
  congrArg (List.map TxChar.byte) (e.change_pushed s)

/-- A byte starts on the bus behind the others, or the first one leaves it (R72). -/
theorem Event.change_onBus (e : Event) (s : State) :
    (e.change s).uart.onBus = s.uart.onBus ∨ (∃ b, (e.change s).uart.onBus = s.uart.onBus ++ [b]) ∨
      ∃ b, s.uart.onBus = b :: (e.change s).uart.onBus := by
  cases e with
  | txStart =>
    unfold Event.change
    obtain hu | ⟨-, c, rest, -, hu⟩ := startOne_cases s.params.echo s.uart
    · rw [State.mapUart_uart, hu]
      exact .inl rfl
    · rw [State.mapUart_uart, hu]
      cases s.params.echo
      exacts [.inl rfl, .inr (.inl ⟨c.byte, rfl⟩)]
  | txDone =>
    unfold Event.change
    obtain ⟨-, hu⟩ | ⟨c, -, hu⟩ := sendOne_cases s.uart <;> rw [State.mapUart_uart, hu] <;> exact .inl rfl
  | busStart b => exact .inr (.inl ⟨b, rfl⟩)
  | rxArrive draw overflow =>
    unfold Event.change
    obtain ⟨-, hu⟩ | ⟨b, rest, fifo, hb, hu⟩ := receiveOne_cases s.params.rxDepth draw overflow s.uart
    · rw [State.mapUart_uart, hu]
      exact .inl rfl
    · rw [State.mapUart_uart, hu]
      exact .inr (.inr ⟨b, hb⟩)
  | _ => exact .inl rfl

@[simp] theorem Event.change_script (e : Event) (s : State) : (e.change s).script = s.script := by
  cases e <;> rfl

@[simp] theorem Event.change_forever (e : Event) (s : State) : (e.change s).forever = s.forever := by
  cases e <;> rfl

/-- A disturbed character keeps its byte. -/
theorem disturb_byte : TxChar.byte ∘ TxChar.disturb = TxChar.byte := rfl

/-- A reset step marks characters and leaves their bytes (R291). -/
theorem resetStep_pushedBytes (s : State) : s.resetStep.pushedBytes = s.pushedBytes := by
  unfold State.pushedBytes State.pushed State.resetStep
  dsimp only
  split
  · rfl
  · cases s.uart.txActive <;> simp [disturb_byte, TxChar.disturb]

theorem resetStep_onBus (s : State) : s.resetStep.uart.onBus = s.uart.onBus := by
  unfold State.resetStep
  dsimp only
  split <;> rfl

/-- A sequencer step pushes at most one byte, behind all pushed before. -/
theorem seqStep_pushedBytes {s t : State} (h : seqStep s = .next t) :
    t.pushedBytes = s.pushedBytes ∨ ∃ b, t.pushedBytes = s.pushedBytes ++ [b] := by
  obtain ⟨-, -, -, -, -, -, -, hactive, -, hline⟩ := seqStep_environment h
  unfold State.pushedBytes State.pushed
  rw [hactive, hline]
  obtain hq | ⟨-, b, hq⟩ := seqStep_txQueue h
  · exact .inl (by rw [hq])
  · exact .inr ⟨b, by simp [hq]⟩

/-- Settles O43: only the sequencer pushes or pops, and the environment moves the bytes on in their order. -/
theorem stepMovesOneByteInOrder : Obligations.StepMovesOneByteInOrder := by
  refine ⟨fun s t hstep => ?_, fun s t h => ⟨seqStep_rxFifo h, seqStep_environment h⟩⟩
  obtain ⟨-, v, rfl⟩ | ⟨-, i, -, hx⟩ | ⟨-, hq⟩ | rfl := step_cases hstep
  · have hpushed := (resetStep_pushedBytes _).trans (s.nextMove.change_pushedBytes s.takeMove)
    refine ⟨.inl hpushed, by simp, by simp, by simp, ?_⟩
    rw [resetStep_onBus]
    exact s.nextMove.change_onBus s.takeMove
  · obtain ⟨b, v, rfl⟩ := exec_frame hx
    exact ⟨.inl rfl, rfl, rfl, rfl, .inl rfl⟩
  · obtain ⟨-, -, -, hparams, hscript, hforever, -, -, hbus, -⟩ := seqStep_environment hq
    exact ⟨seqStep_pushedBytes (s := s.takeMove) hq, hparams, hscript, hforever, .inl hbus⟩
  · have hpushed := s.nextMove.change_pushedBytes s.takeMove
    exact ⟨.inl hpushed, by simp, by simp, by simp, s.nextMove.change_onBus s.takeMove⟩

end Sys2Proof.Machine
end

section
/-! PROOFS. The break on the line, and the line between the break and Sync (20_memory.md R69, 30_encoding.md R93,
41_break_generator.md R143). -/

namespace Sys2Proof.Machine

/-! ### The break in bit times -/

theorem dominantRun_break : dominantRun (characterLevels 0x00) = 9 := by decide

/-- A start bit, eight data bits and a stop bit (R69). -/
theorem characterLevels_length (b : Byte) : (characterLevels b).length = 10 := by
  simp [characterLevels]

/-- At the half of an even rate `n` bits last as long as `2 * n` bits at the rate (R93). -/
theorem sameDuration_half {baud : Word} (heven : baud.toNat % 2 = 0) (n : Nat) :
    SameDuration n (baud >>> 1) (2 * n) baud := by
  have hhalf : (baud >>> 1).toNat * 2 = baud.toNat := by
    rw [BitVec.toNat_ushiftRight, Nat.shiftRight_one]
    omega
  unfold SameDuration
  rw [← hhalf]
  ring

/-! ### The character that leaves -/

theorem sendOne_txActive (u : Uart) : u.sendOne.txActive = none := by
  obtain ⟨ha, hu⟩ | ⟨c, -, hu⟩ := sendOne_cases u <;> rw [hu]
  exact ha

/-- A reset step starts no character. -/
theorem resetStep_txActive {s : State} (h : s.uart.txActive = none) : s.resetStep.uart.txActive = none := by
  unfold State.resetStep
  dsimp only
  split
  · exact h
  · rw [h]
    rfl

/-- The move by which a character leaves, also while `rst` is 1, leaves none going out. -/
theorem step_txDone_txActive {s t : State} (hn : s.nextMove = .txDone) (h : step s = .next t) :
    t.uart.txActive = none := by
  have hsent : (s.takeMove.mapUart Uart.sendOne).uart.txActive = none := sendOne_txActive _
  rw [step, hn, move, envMove] at h
  split at h <;> obtain rfl := Host.Outcome.next.inj h
  exacts [resetStep_txActive hsent, hsent]

/-! ### From the break to Sync -/

/-- Sync is the next character the block will push, at the rate `baud`: the break is over in BRK_FLUSH2, or the rate is
back in TX_SYNC. -/
def Block.SyncDue (baud : Word) (b : Block) : Prop :=
  b.baud = baud ∧
    ((b.f.state = .brkFlush2 ∧ b.f.op ≠ .brk) ∨ (b.f.state = .txSync ∧ b.baudOut = baud))

/-- No character goes out, and the first one waiting or yet to be pushed is Sync at the rate `baud`. -/
structure State.AwaitsSync (baud : Word) (s : State) : Prop where
  running : s.rst = false
  resting : s.uart.txActive = none
  first : (s.uart.txQueue = [] ∧ s.block.SyncDue baud) ∨ ∃ rest, s.uart.txQueue = sentChar baud 0x55 :: rest

variable {baud : Word} {s t : State}

theorem Block.SyncDue.busy {b : Block} (h : b.SyncDue baud) : b.busy = true := by
  obtain ⟨-, ⟨hs, -⟩ | ⟨hs, -⟩⟩ := h <;> simp [Block.busy, hs]

/-- While BUSY no instruction reaches the sequencer or a rate. -/
theorem Block.SyncDue.written {b b' : Block} {i : Instr} (h : b.SyncDue baud) (hw : b.Written i b') :
    b'.SyncDue baud := by
  obtain ⟨st, irq, rfl⟩ := hw.of_busy h.busy
  exact h

/-- A sequencer step goes on to TX_SYNC at the rate BAUD, and then pushes Sync (R142, R208). -/
theorem Block.SyncDue.seqStep (hdue : s.block.SyncDue baud) (hq : s.uart.txQueue = []) (h : seqStep s = .next t) :
    (t.uart.txQueue = [] ∧ t.block.SyncDue baud) ∨ ∃ rest, t.uart.txQueue = sentChar baud 0x55 :: rest := by
  have ⟨hbaud, hstate⟩ := hdue
  obtain ⟨hs, hop⟩ | ⟨hs, hout⟩ := hstate
  · obtain ⟨-, rfl⟩ | ⟨-, ho, -⟩ | ⟨-, -, rfl⟩ := seqBrkFlush2_cases ((seqStep_brkFlush2 hs).symm.trans h)
    · exact .inl ⟨hq, hdue⟩
    · exact absurd ho hop
    · exact .inl ⟨hq, hbaud, .inr ⟨rfl, hbaud⟩⟩
  · obtain ⟨-, rfl⟩ | ⟨-, rfl⟩ := seqTxSync_cases ((seqStep_txSync hs).symm.trans h)
    · exact .inl ⟨hq, hdue⟩
    · exact .inr ⟨[], by simp [hq, hout, sentChar]⟩

theorem State.AwaitsSync.seqStep (h : s.AwaitsSync baud) (hx : seqStep s = .next t) : t.AwaitsSync baud := by
  obtain ⟨-, hrst, -, -, -, -, -, hactive, -, -⟩ := seqStep_environment hx
  refine ⟨hrst.trans h.running, hactive.trans h.resting, ?_⟩
  obtain ⟨hq, hdue⟩ | ⟨rest, hq⟩ := h.first
  · exact hdue.seqStep hq hx
  · obtain hkept | ⟨-, b, hpushed⟩ := seqStep_txQueue hx
    · exact .inr ⟨rest, hkept.trans hq⟩
    · exact .inr ⟨_, hpushed.trans (congrArg (· ++ _) hq)⟩

theorem State.AwaitsSync.exec {i : Instr} (h : s.AwaitsSync baud) (hx : exec i s = .next t) :
    t.AwaitsSync baud := by
  have hw := exec_written hx
  obtain ⟨b, v, rfl⟩ := exec_frame hx
  exact ⟨h.running, h.resting, h.first.imp_left fun ⟨hq, hdue⟩ => ⟨hq, hdue.written hw⟩⟩

theorem receiveOne_tx (depth : Nat) (draw : ArrivalDraw) (overflow : OverflowDraw) (u : Uart) :
    (u.receiveOne depth draw overflow).txActive = u.txActive ∧
      (u.receiveOne depth draw overflow).txQueue = u.txQueue := by
  obtain ⟨-, hu⟩ | ⟨b, rest, fifo, -, hu⟩ := receiveOne_cases depth draw overflow u <;> rw [hu] <;>
    exact ⟨rfl, rfl⟩

/-- With none going out, only a start moves a character in the transmitter. -/
theorem Event.change_tx {e : Event} (he : e ≠ .txStart) (h : s.uart.txActive = none) :
    (e.change s).uart.txActive = none ∧ (e.change s).uart.txQueue = s.uart.txQueue := by
  cases e with
  | txStart => exact absurd rfl he
  | txDone =>
    have hu : s.uart.sendOne = s.uart := by rw [Uart.sendOne, h]
    exact ⟨(congrArg Uart.txActive hu).trans h, congrArg Uart.txQueue hu⟩
  | rxArrive draw overflow =>
    obtain ⟨ha, hq⟩ := receiveOne_tx s.params.rxDepth draw overflow s.uart
    exact ⟨ha.trans h, hq⟩
  | _ => exact ⟨h, rfl⟩

theorem Event.change_rst {e : Event} (he : e ≠ .rst true) (h : s.rst = false) : (e.change s).rst = false := by
  cases e with
  | rst level => cases level; exacts [rfl, absurd rfl he]
  | _ => exact h

theorem State.AwaitsSync.takeMove (h : s.AwaitsSync baud) : s.takeMove.AwaitsSync baud :=
  ⟨h.running, h.resting, h.first⟩

theorem State.AwaitsSync.change {e : Event} (h : s.AwaitsSync baud) (hstart : e ≠ .txStart) (hrst : e ≠ .rst true) :
    (e.change s).AwaitsSync baud := by
  obtain ⟨ha, hq⟩ := Event.change_tx hstart h.resting
  refine ⟨Event.change_rst hrst h.running, ha, ?_⟩
  rw [hq, Event.change_block]
  exact h.first

/-- No step but a start or a reset ends the wait for Sync. -/
theorem State.AwaitsSync.step (h : s.AwaitsSync baud) (hstart : s.nextMove ≠ .txStart)
    (hrst : s.nextMove ≠ .rst true) (hstep : step s = .next t) : t.AwaitsSync baud := by
  have hchange := h.takeMove.change hstart hrst
  obtain ⟨hreset, v, rfl⟩ | ⟨-, i, -, hx⟩ | ⟨-, hq⟩ | rfl := step_cases hstep
  · exact absurd (hreset.symm.trans hchange.running) nofun
  · exact h.takeMove.exec hx
  · exact h.takeMove.seqStep hq
  · exact hchange

/-- The first of `n + 1` steps, and the other `n`. -/
theorem runSteps_succ {n : Nat} (h : runSteps (n + 1) s = .next t) :
    ∃ u, step s = .next u ∧ runSteps n u = .next t := by
  unfold runSteps at h
  split at h
  · exact ⟨_, ‹_›, h⟩
  all_goals exact nomatch h

theorem State.AwaitsSync.runSteps {n : Nat} (h : s.AwaitsSync baud) (hrun : runSteps n s = .next t)
    (hmoves : ∀ k < n, ∀ u, runSteps k s = .next u → u.nextMove ≠ .txStart ∧ u.nextMove ≠ .rst true) :
    t.AwaitsSync baud := by
  induction n generalizing s with
  | zero =>
    obtain rfl := Host.Outcome.next.inj hrun
    exact h
  | succ n ih =>
    obtain ⟨u, hstep, hrest⟩ := runSteps_succ hrun
    obtain ⟨hstart, hrst⟩ := hmoves 0 n.succ_pos s rfl
    refine ih (h.step hstart hrst hstep) hrest fun k hk v hv => ?_
    exact hmoves (k + 1) (Nat.succ_lt_succ hk) v ((runSteps_of_step hstep k).trans hv)

/-- Settles O57: the break is nine dominant bits at the half rate, and from its end until a character starts none goes
out while Sync is the first to come. -/
theorem breakIsEighteenNominalBits : Obligations.BreakIsEighteenNominalBits := by
  refine ⟨by decide, characterLevels_length, fun baud _ heven => ?_, fun u c ha hd => onLine_sending ha hd,
    fun s t hn h => onLine_resting (step_txDone_txActive hn h), ?_⟩
  · rw [dominantRun_break]
    exact ⟨sameDuration_half heven 9, sameDuration_half heven 1⟩
  · intro s t n hr hs hop ha hq hrun hmoves
    have hstart : s.AwaitsSync s.block.baud := ⟨hr, ha, .inl ⟨hq, rfl, .inl ⟨hs, hop⟩⟩⟩
    have hend := hstart.runSteps hrun hmoves
    exact ⟨onLine_resting hend.resting, hend.first.imp_left And.left⟩

end Sys2Proof.Machine
end

section
/-! PROOFS. Words and instructions: the decoder and the encoder are inverse to each other (30_encoding.md R96 to R99),
and a command word does what its opcode says (R97, R103). -/

namespace Sys2Proof.Machine

/-! ### The fields of a command word -/

@[simp] theorem cmdOpcode_mkCmd (opc : BitVec 4) (ign : BitVec 28) : cmdOpcode (mkCmd opc ign) = opc :=
  BitVec.extractLsb'_append_eq_right

@[simp] theorem cmdIgnored_mkCmd (opc : BitVec 4) (ign : BitVec 28) : cmdIgnored (mkCmd opc ign) = ign :=
  BitVec.extractLsb'_append_eq_left

/-- A command word is its opcode and its ignored bits (R96). -/
theorem mkCmd_cmdOpcode_cmdIgnored (w : Word) : mkCmd (cmdOpcode w) (cmdIgnored w) = w :=
  BitVec.extractLsb'_append_extractLsb'

/-! ### Decode after encode -/

/-- The decoder undoes the encoder: a command keeps its ignored bits, a write its value (R96, R98). -/
theorem decode_encode (i : Instr) : decode (encode i) = .ok i := by
  cases i
  case nop | writeFrame | readFrame | sendBreak | rxFlush | reserved5 | reserved6 | reserved7 | reserved8 |
      reserved9 | reservedA | reservedB | reservedC | reservedD | reservedE | reservedF =>
    simp [encode, decode, decodeCmd]
  all_goals rfl

/-- Settles O1: every instruction is what its word decodes to. -/
theorem decodeInvertsEncode : Obligations.DecodeInvertsEncode :=
  fun i _ => decode_encode i

/-- Settles O3: each word is the encoding of the instruction it stands for. -/
theorem wordsFromTheTablesDecode : Obligations.WordsFromTheTablesDecode :=
  ⟨decode_encode (.nop 0), decode_encode (.readFrame 1), decode_encode (.sendBreak 0), decode_encode (.reserved5 0),
    decode_encode .rdStatus, decode_encode .rdData7, decode_encode (.wrFid 0x3C), decode_encode (.wrCmd 0x1),
    decode_encode (.wrPid 0xFF)⟩

/-! ### Encode after decode -/

/-- The command of each opcode is encoded with that opcode (R96). -/
theorem encode_decodeCmd (w : Word) : encode (decodeCmd w) = .cmd w := by
  have hfields : ∀ (opc : BitVec 4) (ign : BitVec 28), encode (decodeCmd (mkCmd opc ign)) = .cmd (mkCmd opc ign) := by
    intro opc ign
    simp only [decodeCmd, cmdOpcode_mkCmd, cmdIgnored_mkCmd]
    obtain ⟨k⟩ := opc
    fin_cases k <;> rfl
  simpa only [mkCmd_cmdOpcode_cmdIgnored] using hfields (cmdOpcode w) (cmdIgnored w)

/-- The read of register `n` is encoded at offset `4 * n`, without a value (R98). -/
theorem encode_decodeRead : ∀ n : BitVec 4, encode (decodeRead n) = .bus (mkTxn false (n ++ 0#2)) 0 := by
  decide

/-- The write of register `n` is encoded at offset `4 * n`, with its value (R98). -/
theorem encode_decodeWrite (n : BitVec 4) (v : Word) :
    encode (decodeWrite n v) = .bus (mkTxn true (n ++ 0#2)) v := by
  obtain ⟨k⟩ := n
  fin_cases k <;> rfl

/-- An aligned transaction word is W and a register number (R99). -/
theorem exists_mkTxn_of_aligned {txn : BitVec 7} (h : txn.toNat % 4 = 0) :
    ∃ (write : Bool) (n : BitVec 4), txn = mkTxn write (n ++ 0#2) := by
  have haligned : ∀ txn : BitVec 7, txn.toNat % 4 = 0 → offsetAligned (txnOffset txn) = true := by decide
  refine ⟨txnWrite txn, (txnOffset txn).extractLsb' 2 4, ?_⟩
  rw [← offset_of_aligned _ (haligned txn h), mkTxn_txnWrite_txnOffset]

/-- W and the register number are all the decoder looks at (R99). -/
theorem decode_mkTxn (write : Bool) (n : BitVec 4) (v : Word) :
    decode (.bus (mkTxn write (n ++ 0#2)) v) = .ok (if write then decodeWrite n v else decodeRead n) := by
  have hreg : ∀ n : BitVec 4, offsetAligned (n ++ 0#2) = true ∧ (n ++ 0#2).extractLsb' 2 4 = n := by decide
  simp [decode, hreg]

/-- The write transactions are the words from 0x40 on (R98). -/
theorem le_mkTxn_toNat_iff : ∀ (write : Bool) (off : BitVec 6), 64 ≤ (mkTxn write off).toNat ↔ write = true := by
  decide

/-- Settles O2: the instruction is the one the word decodes to, and encoding it gives the word back. -/
theorem everyWordNamesOneInstruction : Obligations.EveryWordNamesOneInstruction := by
  have only : ∀ {word word' : HostWord} {i : Instr}, decode word = .ok i → encode i = word' →
      ∃! j, decode word = .ok j ∧ encode j = word' :=
    fun hd he => ⟨_, ⟨hd, he⟩, fun _ ⟨hj, _⟩ => Except.ok.inj (hj.symm.trans hd)⟩
  refine ⟨fun w => only rfl (encode_decodeCmd w), fun txn v h => ?_⟩
  obtain ⟨write, n, rfl⟩ := exists_mkTxn_of_aligned h
  refine only (decode_mkTxn write n v) ?_
  cases write
  case true => simp [encode_decodeWrite, le_mkTxn_toNat_iff]
  case false => simp [encode_decodeRead, le_mkTxn_toNat_iff]

/-! ### What a command word does -/

/-- The write of CMD runs the command its value decodes to (R103, R200). -/
theorem exec_wrCmd (s : State) (v : Word) : exec (.wrCmd v) s = exec (decodeCmd v) s := by
  simp only [exec, execWrCmd, decodeCmd]
  generalize cmdOpcode v = opc
  obtain ⟨k⟩ := opc
  fin_cases k <;> rfl

/-- The access port makes no difference between a command line and the transaction `wr CMD` (R103). -/
theorem hostAccess_cmd (width : AccessWidth) (v : Word) (s : State) :
    hostAccess width (.cmd v) s = hostAccess width (.bus 0x44 v) s := by
  cases width
  case w32 => exact (exec_wrCmd s v).symm
  all_goals rfl

/-- Settles O9: the write of CMD and the command have one effect, and so have the two lines at the port. -/
theorem commandWordIsWriteOfCmd : Obligations.CommandWordIsWriteOfCmd :=
  fun s v => ⟨exec_wrCmd s v, fun width => by simp only [hostMove, hostAccess_cmd]⟩

/-- Settles O16: a reserved opcode is refused, and no command looks at the ignored bits. -/
theorem reservedOpcodesSetCmdErr : Obligations.ReservedOpcodesSetCmdErr := by
  intro s ign refused
  exact ⟨rfl, rfl, rfl, rfl, rfl, rfl, rfl, rfl, rfl, rfl, rfl, rfl, rfl, rfl, rfl, rfl⟩

end Sys2Proof.Machine
end

section
/-! PROOFS. The state fields of STATUS and the layout of the PID byte (30_encoding.md R92, R100, R101). -/

namespace Sys2Proof.Machine

/-! ### STATUS.RSTATE and STATUS.FSTATE -/

/-- RSTATE stands above the eight one-bit fields of STATUS (R29). -/
theorem Block.statusWord_rstate (b : Block) : b.statusWord.extractLsb' 8 3 = b.r.state.code := by
  unfold Block.statusWord
  iterate 8 rw [BitVec.extractLsb'_append_eq_of_le (by decide)]
  exact BitVec.extractLsb'_append_eq_right

/-- FSTATE stands above RSTATE, CFG_ERR and RCOUNT (R29). -/
theorem Block.statusWord_fstate (b : Block) : b.statusWord.extractLsb' 16 4 = b.f.state.code := by
  unfold Block.statusWord
  iterate 11 rw [BitVec.extractLsb'_append_eq_of_le (by decide)]
  exact BitVec.extractLsb'_append_eq_right

/-- Codes 6 and 7 are free (R100). -/
theorem RState.code_ne (st : RState) : st.code ≠ 6 ∧ st.code ≠ 7 := by
  cases st <;> decide

/-- Codes 14 and 15 are free (R101). -/
theorem FState.code_ne (st : FState) : st.code ≠ 14 ∧ st.code ≠ 15 := by
  cases st <;> decide

/-- Settles O11: the two fields are the codes of the two states, and no state has an unused code. -/
theorem statusFieldsAndCodes : Obligations.StatusFieldsAndCodes := by
  refine ⟨fun b => ?_, rfl, rfl⟩
  rw [b.statusWord_rstate, b.statusWord_fstate]
  obtain ⟨h6, h7⟩ := b.r.state.code_ne
  obtain ⟨h14, h15⟩ := b.f.state.code_ne
  exact ⟨rfl, rfl, h6, h7, h14, h15⟩

/-! ### The PID byte -/

section

variable {w : Nat} (f : BitVec w)

theorem maskFid_getLsbD {k : Nat} (hk : k < 6) : (maskFid f).getLsbD k = f.getLsbD k := by
  simp [maskFid, hk]

/-- Below bit 6 the PID is the identifier, above it the two parity bits. -/
theorem pid_getLsbD (k : Nat) :
    (pid f).getLsbD k = if k < 6 then (maskFid f).getLsbD k
      else (BitVec.ofBool (parity1 (maskFid f)) ++ BitVec.ofBool (parity0 (maskFid f))).getLsbD (k - 6) := by
  rw [pid, BitVec.getLsbD_append]

theorem pid_getLsbD_low {k : Nat} (hk : k < 6) : (pid f).getLsbD k = f.getLsbD k := by
  rw [pid_getLsbD, if_pos hk, maskFid_getLsbD f hk]

theorem parity0_maskFid :
    parity0 (maskFid f) = (f.getLsbD 0 ^^ f.getLsbD 1 ^^ f.getLsbD 2 ^^ f.getLsbD 4) := by
  simp only [parity0, maskFid_getLsbD, Nat.reduceLT, Bool.xor_assoc]

theorem parity1_maskFid :
    parity1 (maskFid f) = !(f.getLsbD 1 ^^ f.getLsbD 3 ^^ f.getLsbD 4 ^^ f.getLsbD 5) := by
  simp only [parity1, maskFid_getLsbD, Nat.reduceLT, Bool.xor_assoc]

theorem pid_getLsbD_six : (pid f).getLsbD 6 = parity0 (maskFid f) := by
  rw [pid_getLsbD, if_neg (by decide), BitVec.getLsbD_append, if_pos (by decide), BitVec.getLsbD_ofBool]
  rfl

theorem pid_getLsbD_seven : (pid f).getLsbD 7 = parity1 (maskFid f) := by
  rw [pid_getLsbD, if_neg (by decide), BitVec.getLsbD_append, if_neg (by decide), BitVec.getLsbD_ofBool]
  rfl

end

/-- Settles O19: the identifier below, the parity bits above it. -/
theorem pidLayout : Obligations.PidLayout :=
  fun f => ⟨fun _ hk => pid_getLsbD_low f hk, (pid_getLsbD_six f).trans (parity0_maskFid f),
    (pid_getLsbD_seven f).trans (parity1_maskFid f)⟩

end Sys2Proof.Machine
end

section
/-! PROOFS. A frame goes out character by character when the UART keeps up (30_encoding.md R90, R91,
43_framer_commands.md R204, R222). -/

namespace Sys2Proof.Machine

/-! ### Rounds of a sequencer step and a character starting and leaving -/

/-- `rst` is 0, and the transmitter is ready and empty. -/
structure State.Resting (s : State) : Prop where
  running : s.rst = false
  ready : s.uart.txReady = true
  queue : s.uart.txQueue = []
  active : s.uart.txActive = none

/-- From the block `b`, `k` rounds put the characters `cs` on the line and leave the block `b'` and the transmitter at
rest. -/
def Block.Sends (k : Nat) (b : Block) (cs : List TxChar) (b' : Block) : Prop :=
  ∀ (s : State) (n : Nat), s.Resting → s.block = b → s.script = sendRounds (k + n) →
    ∃ t, runSteps (3 * k) s = .next t ∧ t.Resting ∧ t.block = b' ∧ t.script = sendRounds n ∧
      t.uart.line = s.uart.line ++ cs

theorem State.Resting.txEmpty {s : State} (h : s.Resting) : s.txEmpty = true := by
  simp [State.txEmpty, h.queue, h.active]

theorem sendRounds_succ (n : Nat) :
    sendRounds (n + 1) = .sequencer :: .txStart :: .txDone :: sendRounds n := by
  simp [sendRounds, List.replicate_succ]

/-- The first `m` of `m + k` steps, and the other `k`. -/
theorem runSteps_add {s t : State} {m : Nat} (h : runSteps m s = .next t) (k : Nat) :
    runSteps (m + k) s = runSteps k t := by
  induction m generalizing s with
  | zero =>
    obtain rfl := Host.Outcome.next.inj h
    rw [Nat.zero_add]
  | succ m ih =>
    obtain ⟨u, hstep, hrest⟩ := runSteps_succ h
    rw [Nat.add_right_comm, runSteps_of_step hstep, ih hrest]

/-- Rounds after rounds put characters after characters. -/
theorem Block.Sends.trans {k k' : Nat} {b b' b'' : Block} {cs cs' : List TxChar} (h : b.Sends k cs b')
    (h' : b'.Sends k' cs' b'') : b.Sends (k + k') (cs ++ cs') b'' := by
  intro s n hs hb hscript
  obtain ⟨t, hrun, ht, htb, htscript, htline⟩ := h s (k' + n) hs hb (by rw [hscript, Nat.add_assoc])
  obtain ⟨u, hrun', hu, hub, huscript, huline⟩ := h' t n ht htb htscript
  refine ⟨u, ?_, hu, hub, huscript, by rw [huline, htline, List.append_assoc]⟩
  rw [Nat.mul_add, runSteps_add hrun, hrun']

/-- The character that waits starts and leaves; with none waiting nothing happens. -/
theorem startOne_sendOne {u : Uart} (ha : u.txActive = none) (hq : u.txQueue.length ≤ 1) (echo : Bool) :
    ∃ bus, (u.startOne echo).sendOne = { u with txQueue := [], onBus := bus, line := u.line ++ u.txQueue } := by
  obtain ⟨ready, queue, active, bus, fifo, line⟩ := u
  obtain rfl : active = none := ha
  match queue, hq with
  | [], _ => exact ⟨bus, by simp [Uart.startOne, Uart.sendOne]⟩
  | [c], _ =>
    cases echo
    exacts [⟨bus, rfl⟩, ⟨bus ++ [c.byte], rfl⟩]

theorem step_txStart {s : State} {rest : List Event} (hr : s.rst = false) (hs : s.script = .txStart :: rest) :
    step s = .next { s with script := rest, uart := s.uart.startOne s.params.echo } := by
  rw [step_script hs]
  exact envMove_running hr

theorem step_txDone {s : State} {rest : List Event} (hr : s.rst = false) (hs : s.script = .txDone :: rest) :
    step s = .next { s with script := rest, uart := s.uart.sendOne } := by
  rw [step_script hs]
  exact envMove_running hr

/-- One round: the sequencer's step, and then what it pushed starts and leaves. -/
theorem runSteps_round {s u : State} {n : Nat} (hr : s.rst = false) (hs : s.script = sendRounds (n + 1))
    (hx : seqStep { s with script := .txStart :: .txDone :: sendRounds n } = .next u) :
    runSteps 3 s =
      .next { u with script := sendRounds n, uart := (u.uart.startOne u.params.echo).sendOne } := by
  obtain ⟨-, hrst, -, -, hscript, -⟩ := seqStep_environment hx
  have hru : u.rst = false := hrst.trans hr
  have hseq : step s = .next u :=
    (step_sequencer hr (State.pending_of_script (hs.trans (sendRounds_succ n)))).trans hx
  rw [runSteps_of_step hseq, runSteps_of_step (step_txStart hru hscript),
    runSteps_of_step (step_txDone (by exact hru) rfl)]
  rfl

/-- One round in which the sequencer leaves the block `b'` and in the queue the characters `cs`, one at most. -/
theorem Block.Sends.of_seqStep {b b' : Block} {cs : List TxChar} (hlen : cs.length ≤ 1)
    (h : ∀ s : State, s.Resting → s.block = b →
      ∃ u, seqStep s = .next u ∧ u.block = b' ∧ u.uart.txQueue = cs) : b.Sends 1 cs b' := by
  intro s n hs hb hscript
  rw [Nat.add_comm] at hscript
  obtain ⟨u, hx, hub, huq⟩ := h { s with script := .txStart :: .txDone :: sendRounds n }
    ⟨hs.running, hs.ready, hs.queue, hs.active⟩ hb
  obtain ⟨-, hrst, -, -, -, -, hready, hactive, -, hline⟩ := seqStep_environment hx
  obtain ⟨bus, hsent⟩ := startOne_sendOne (hactive.trans hs.active) (huq ▸ hlen) u.params.echo
  refine ⟨_, runSteps_round hs.running hscript hx, ?_, hub, rfl, ?_⟩
  · rw [hsent]
    exact ⟨hrst.trans hs.running, hready.trans hs.ready, rfl, hactive.trans hs.active⟩
  · rw [hsent, ← huq]
    exact congrArg (· ++ _) hline

/-! ### One round of each state -/

section

variable {b : Block}

/-- A round in which the sequencer pushes a byte. -/
theorem Block.Sends.of_push {b' : Block} {byte : Byte}
    (h : ∀ s : State, s.Resting → s.block = b → seqStep s = .next { s.txPush byte with block := b' }) :
    b.Sends 1 [sentChar b.baudOut byte] b' := by
  refine .of_seqStep (by simp) fun s hs hb => ⟨_, h s hs hb, rfl, ?_⟩
  simp [hs.queue, hb, sentChar]

/-- A round in which it pushes none. -/
theorem Block.Sends.of_silent {b' : Block}
    (h : ∀ s : State, s.Resting → s.block = b → seqStep s = .next { s with block := b' }) :
    b.Sends 1 [] b' :=
  .of_seqStep (by simp) fun s hs hb => ⟨_, h s hs hb, rfl, hs.queue⟩

theorem Block.sends_brkFlush1 (h : b.f.state = .brkFlush1) :
    b.Sends 1 [] ((b.setBaud b.halfBaud).goto .brkSend) :=
  .of_silent <| by
    rintro s hs rfl
    simp [seqStep, h, seqBrkFlush1, hs.txEmpty, State.mapBlock]

theorem Block.sends_brkSend (h : b.f.state = .brkSend) :
    b.Sends 1 [sentChar b.baudOut 0x00] (b.goto .brkFlush2) :=
  .of_push <| by
    rintro s hs rfl
    simp [seqStep, h, seqBrkSend, hs.ready, State.mapBlock]

theorem Block.sends_brkFlush2 (h : b.f.state = .brkFlush2) (hop : b.f.op ≠ .brk) :
    b.Sends 1 [] ((b.setBaud b.baud).goto .txSync) :=
  .of_silent <| by
    rintro s hs rfl
    simp [seqStep, h, seqBrkFlush2, hs.txEmpty, hop, State.mapBlock]

theorem Block.sends_txSync (h : b.f.state = .txSync) :
    b.Sends 1 [sentChar b.baudOut 0x55] (b.goto .txPid) :=
  .of_push <| by
    rintro s hs rfl
    simp [seqStep, h, seqTxSync, hs.ready, State.mapBlock]

theorem Block.afterPid_header (now : Word) (hop : b.f.op = .write) (hlen : b.len = 0) :
    b.afterPid now = b.goto .txFlush := by
  rw [Block.afterPid, if_neg (by simp [hop]), if_pos hlen]

theorem Block.afterPid_data (now : Word) (hop : b.f.op = .write) (hlen : b.len ≠ 0) :
    b.afterPid now = { b with f := { b.f with idx := 0, state := .txData } } := by
  rw [Block.afterPid, if_neg (by simp [hop]), if_neg hlen]

theorem Block.sends_txPid_header (h : b.f.state = .txPid) (hop : b.f.op = .write) (hlen : b.len = 0) :
    b.Sends 1 [sentChar b.baudOut b.framePid] (b.goto .txFlush) :=
  .of_push <| by
    rintro s hs rfl
    simp [seqStep, h, seqTxPid, hs.ready, State.mapBlock, Block.afterPid_header _ hop hlen]

theorem Block.sends_txPid_data (h : b.f.state = .txPid) (hop : b.f.op = .write) (hlen : b.len ≠ 0) :
    b.Sends 1 [sentChar b.baudOut b.framePid] { b with f := { b.f with idx := 0, state := .txData } } :=
  .of_push <| by
    rintro s hs rfl
    simp [seqStep, h, seqTxPid, hs.ready, State.mapBlock, Block.afterPid_data _ hop hlen]

theorem Block.sends_txData {d : Byte} (h : b.f.state = .txData) (hidx : b.f.idx < b.len)
    (hd : b.data.get? b.f.idx.toNat = some d) : b.Sends 1 [sentChar b.baudOut d] b.afterData :=
  .of_push <| by
    rintro s hs rfl
    simp [seqStep, h, seqTxData, hs.ready, State.mapBlock, hidx, hd]

theorem Block.sends_txCks (h : b.f.state = .txCks) :
    b.Sends 1 [sentChar b.baudOut b.frameChecksum] (b.goto .txFlush) :=
  .of_push <| by
    rintro s hs rfl
    simp [seqStep, h, seqTxCks, hs.ready, State.mapBlock]

theorem Block.sends_txFlush (h : b.f.state = .txFlush) (hv : b.ctrl.verify = false) (hd : b.ctrl.drain = false) :
    b.Sends 1 [] (b.finish true) :=
  .of_silent <| by
    rintro s hs rfl
    simp [seqStep, h, seqTxFlush, hs.txEmpty, State.mapBlock, Block.afterFlush, hv, hd]

/-- In IDLE nothing is sent, for any number of rounds. -/
theorem Block.sends_idle (h : b.f.state = .idle) : ∀ k, b.Sends k [] b
  | 0 => fun s n hs hb hscript => ⟨s, rfl, hs, hb, by simpa using hscript, by simp⟩
  | k + 1 => (Block.sends_idle h k).trans <| .of_silent fun s _ hb => by
      subst hb
      exact seqStep_idle h

/-! ### From the break to the end of the frame -/

/-- Below LEN the index does not wrap (R213). -/
theorem idx_succ_toNat {i n : BitVec 4} (hn : n.toNat ≤ 8) (hi : i.toNat < n.toNat) :
    (i + 1).toNat = i.toNat + 1 := by
  have hone : (1 : BitVec 4).toNat = 1 := rfl
  rw [BitVec.toNat_add_of_lt] <;> omega

/-- The byte at `f.idx` is the first of the data bytes still to go (R213). -/
theorem Block.sends_dataByte (h : b.f.state = .txData) (hlen : b.len.toNat ≤ 8)
    (hidx : b.f.idx.toNat < b.len.toNat) :
    ∃ d, b.frameData.drop b.f.idx.toNat = d :: b.frameData.drop (b.f.idx + 1).toNat ∧
      b.Sends 1 [sentChar b.baudOut d] b.afterData := by
  have hlt : b.f.idx.toNat < b.frameData.length := by
    rw [Block.frameData, Bytes8.first_length]
    omega
  have hget : b.data.get? b.f.idx.toNat = some b.frameData[b.f.idx.toNat] := by
    rw [← List.getElem?_eq_getElem hlt, Block.frameData, Bytes8.first, List.getElem?_take_of_lt hidx, Bytes8.get?]
  refine ⟨_, ?_, Block.sends_txData h (BitVec.lt_def.mpr hidx) hget⟩
  rw [List.drop_eq_getElem_cons hlt, idx_succ_toNat hlen hidx]

/-- The data bytes from `f.idx` on go out one a round (R213). -/
theorem Block.sends_frameData (m : Nat) (h : b.f.state = .txData) (hlen : b.len.toNat ≤ 8)
    (hidx : b.f.idx.toNat + (m + 1) = b.len.toNat) :
    b.Sends (m + 1) ((b.frameData.drop b.f.idx.toNat).map (sentChar b.baudOut))
      { b with f := { b.f with idx := b.len, state := .txCks } } := by
  induction m generalizing b with
  | zero =>
    obtain ⟨d, hdrop, hbyte⟩ := Block.sends_dataByte h hlen (by omega)
    have hlast : b.f.idx + 1 = b.len := BitVec.eq_of_toNat_eq ((idx_succ_toNat hlen (by omega)).trans hidx)
    have hrest : b.frameData.drop (b.f.idx + 1).toNat = [] := by
      rw [List.drop_eq_nil_iff, hlast, Block.frameData, Bytes8.first_length]
      exact Nat.min_le_left _ _
    rw [Block.afterData_last hlast, hlast] at hbyte
    rw [hdrop, hrest]
    exact hbyte
  | succ m ih =>
    obtain ⟨d, hdrop, hbyte⟩ := Block.sends_dataByte h hlen (by omega)
    have hnext := idx_succ_toNat hlen (show b.f.idx.toNat < b.len.toNat by omega)
    have hnotlast : b.f.idx + 1 ≠ b.len := fun heq => by
      rw [← heq, hnext] at hidx
      omega
    rw [Block.afterData_next hnotlast] at hbyte
    rw [hdrop, Nat.add_comm]
    exact hbyte.trans (ih rfl hlen (by dsimp only; omega))

/-- The break at the half rate and Sync at BAUD (R140 to R142, R208). -/
theorem Block.sends_breakSync (h : b.f.state = .brkFlush1) (hop : b.f.op = .write) :
    b.Sends 4 [sentChar (b.baud >>> 1) 0x00, sentChar b.baud 0x55] ((b.setBaud b.baud).goto .txPid) := by
  have hbrk : b.f.op ≠ .brk := by simp [hop]
  exact (((Block.sends_brkFlush1 h).trans (Block.sends_brkSend rfl)).trans
    (Block.sends_brkFlush2 rfl hbrk)).trans (Block.sends_txSync rfl)

theorem Block.frameData_eq_nil_iff : b.frameData = [] ↔ b.len = 0 := by
  rw [← List.length_eq_zero_iff, Block.frameData, Bytes8.first_length, BitVec.toNat_eq]
  simp

/-- What the sequencer leaves when a frame without VERIFY and DRAIN has gone out. -/
def Block.frameSent (i : BitVec 4) (b : Block) : Block :=
  ({ b.setBaud b.baud with f := { b.f with idx := i } } : Block).finish true

/-- A frame with no data is the header alone (R91). -/
theorem Block.sends_headerAlone (h : b.f.state = .brkFlush1) (hop : b.f.op = .write) (hlen : b.len = 0)
    (hv : b.ctrl.verify = false) (hd : b.ctrl.drain = false) :
    b.Sends 6 (frameChars b.fid b.frameData b.baud) (b.frameSent b.f.idx) := by
  rw [frameChars, if_pos (Block.frameData_eq_nil_iff.mpr hlen)]
  exact ((Block.sends_breakSync h hop).trans (Block.sends_txPid_header rfl hop hlen)).trans
    (Block.sends_txFlush rfl hv hd)

/-- A frame with data is the header, the data and the checksum (R90). -/
theorem Block.sends_frameWithData {m : Nat} (h : b.f.state = .brkFlush1) (hop : b.f.op = .write)
    (hm : m + 1 = b.len.toNat) (hlen : b.len.toNat ≤ 8) (hv : b.ctrl.verify = false) (hd : b.ctrl.drain = false) :
    b.Sends (8 + m) (frameChars b.fid b.frameData b.baud) (b.frameSent b.len) := by
  have hne : b.len ≠ 0 := fun h0 => by simp [h0] at hm
  have hall := (((((Block.sends_breakSync h hop).trans (Block.sends_txPid_data rfl hop hne)).trans
    (Block.sends_frameData m rfl hlen (by simpa using hm))).trans (Block.sends_txCks rfl)).trans
    (Block.sends_txFlush rfl hv hd))
  have hk : 4 + 1 + (m + 1) + 1 + 1 = 8 + m := by omega
  rw [frameChars, if_neg (mt Block.frameData_eq_nil_iff.mp hne), List.map_append]
  rw [hk, List.append_nil, List.append_assoc] at hall
  exact hall

/-- The frame of FID and DATA goes out within fifteen rounds, the longest one in all of them (R90, R91). -/
theorem Block.sends_frame (h : b.f.state = .brkFlush1) (hop : b.f.op = .write) (hlen : b.len.toNat ≤ 8)
    (hv : b.ctrl.verify = false) (hd : b.ctrl.drain = false) :
    ∃ i, b.Sends 15 (frameChars b.fid b.frameData b.baud) (b.frameSent i) := by
  obtain hzero | ⟨m, hm⟩ : b.len.toNat = 0 ∨ ∃ m, b.len.toNat = m + 1 := by
    cases b.len.toNat <;> simp
  · have hhead := (Block.sends_headerAlone h hop (BitVec.eq_of_toNat_eq hzero) hv hd).trans (Block.sends_idle rfl 9)
    rw [List.append_nil] at hhead
    exact ⟨_, hhead⟩
  · have hframe := (Block.sends_frameWithData h hop hm.symm hlen hv hd).trans (Block.sends_idle rfl (7 - m))
    have hk : 8 + m + (7 - m) = 15 := by omega
    rw [List.append_nil, hk] at hframe
    exact ⟨_, hframe⟩

end

/-! ### The command -/

/-- A write of CMD by the host runs the command (R200). -/
theorem step_wrCmd {s : State} {v : Word} {rest : List Event} (hr : s.rst = false)
    (hs : s.script = .host .w32 (.bus 0x44 v) :: rest) : step s = exec (.wrCmd v) { s with script := rest } :=
  stepRunsDecodedInstruction s _ _ rest hr (State.pending_of_script hs) (decode_encode (.wrCmd v)) rfl

/-- The block after the acceptance of WRITE_FRAME (R201, R204). -/
def Block.frameStarted (b : Block) : Block :=
  { b with
    status := b.status.accepted
    f := { b.f with op := .write, state := .brkFlush1 } }

theorem Block.command_write {b : Block} (h : b.Accepts .write) : b.command .write = b.frameStarted := by
  obtain ⟨hidle, hlen, hbaud⟩ := h
  rw [Block.command_idle hidle, Block.accept_ok hlen hbaud]
  rfl

theorem Block.Accepts.len_le {b : Block} (h : b.Accepts .write) : b.len.toNat ≤ 8 :=
  have ⟨_, hlen, _⟩ := h
  BitVec.le_def.mp ((b.badLen_eq_false_iff .write).mp hlen rfl)

theorem step_writeFrame {s : State} {rest : List Event} (hr : s.rst = false)
    (hs : s.script = .host .w32 (.bus 0x44 0x1) :: rest) (h : s.block.Accepts .write) :
    step s = .next { s with script := rest, block := s.block.frameStarted } := by
  rw [step_wrCmd hr hs, ← Block.command_write h]
  rfl

/-- Settles O54: the write of CMD accepts the command, and fifteen rounds send its frame. -/
theorem writeFrameSendsTheFrame : Obligations.WriteFrameSendsTheFrame := by
  intro s hr haccepts hready hq ha hv hd
  have hstart := step_writeFrame (s := { s with script := .host .w32 (.bus 0x44 0x1) :: sendRounds 15 })
    hr rfl haccepts
  obtain ⟨i, hsends⟩ := Block.sends_frame (b := s.block.frameStarted) rfl rfl haccepts.len_le hv hd
  obtain ⟨t, hrun, ht, hblock, -, hline⟩ := hsends
    { s with script := sendRounds 15, block := s.block.frameStarted } 0 ⟨hr, hready, hq, ha⟩ rfl rfl
  refine ⟨t, (runSteps_of_step hstart 45).trans hrun, ?_⟩
  rw [hblock]
  exact ⟨rfl, rfl, rfl, rfl, rfl, ht.queue, ht.active, hline⟩

end Sys2Proof.Machine
end

section
/-! PROOFS. The PID is determined by the identifier under the mask, and determines it (30_encoding.md R92,
40_checksum_pid.md R120). -/

namespace Sys2Proof.Machine

@[simp] theorem maskFid_toNat {w : Nat} (f : BitVec w) : (maskFid f).toNat = f.toNat % 64 :=
  BitVec.toNat_setWidth 6 f

/-- A masked identifier is its own mask. -/
@[simp] theorem maskFid_frameId (f : FrameId) : maskFid f = f := BitVec.setWidth_eq f

theorem maskFid_and_0x3F (f : Word) : maskFid (f &&& 0x3F) = maskFid f :=
  BitVec.setWidth_and.trans (BitVec.and_allOnes (x := maskFid f))

theorem pid_maskFid {w : Nat} (f : BitVec w) : pid (maskFid f) = pid f := by
  simp only [pid, maskFid_frameId]

theorem pid_congr {v w : Nat} {f : BitVec v} {g : BitVec w} (h : maskFid f = maskFid g) : pid f = pid g := by
  rw [← pid_maskFid f, h, pid_maskFid]

/-- The parity bits stand above the identifier, so the mask takes them off. -/
theorem maskFid_pid {w : Nat} (f : BitVec w) : maskFid (pid f) = maskFid f :=
  BitVec.setWidth_append_eq_right

theorem pid_injective {f g : FrameId} (h : pid f = pid g) : f = g := by
  rw [← maskFid_frameId f, ← maskFid_pid, h, maskFid_pid, maskFid_frameId]

/-- A byte is the PID of at most one identifier: its own low six bits. -/
theorem pid_eq_iff (f : FrameId) (b : Byte) : pid f = b ↔ f = maskFid b ∧ pid (maskFid b) = b := by
  constructor
  · rintro rfl
    rw [maskFid_pid, maskFid_frameId]
    exact ⟨rfl, rfl⟩
  · rintro ⟨rfl, hb⟩
    exact hb

/-- Identifier 0 has PID 0x80, so 0x00 is no PID. -/
theorem pid_ne_zero (f : FrameId) : pid f ≠ 0x00 := fun h =>
  absurd ((pid_eq_iff f 0x00).mp h).2 (by decide)

theorem pid_eq_sync_iff (f : FrameId) : pid f = 0x55 ↔ f = 0x15 :=
  (pid_eq_iff f 0x55).trans (and_iff_left (by decide))

/-- Settles O20: masking the PID gives the identifier back, so a byte is the PID of its own low six bits only. -/
theorem pidIsInjectiveAndNeverZero : Obligations.PidIsInjectiveAndNeverZero :=
  ⟨fun f => (pid_congr (maskFid_and_0x3F f)).symm, fun _ _ => pid_injective,
    fun f => ⟨pid_ne_zero f, pid_eq_sync_iff f⟩, by decide, by decide⟩

end Sys2Proof.Machine
end

section
/-! PROOFS. The checksum as arithmetic on the total, and its dispatch on the identifier (40_checksum_pid.md R121 to
R125). -/

namespace Sys2Proof.Machine

/-! ### The sum and the two folds in numbers -/

/-- The sum of R121 from any 16-bit start: it wraps at 2^16 and only there. -/
theorem foldl_add_setWidth_toNat (d : List Byte) (acc : BitVec 16) :
    (d.foldl (fun sum b => sum + b.setWidth 16) acc).toNat =
      (acc.toNat + (d.map BitVec.toNat).sum) % 2 ^ 16 := by
  induction d generalizing acc with
  | nil => simp [Nat.mod_eq_of_lt acc.isLt]
  | cons b d ih =>
    have hb : b.toNat < 2 ^ 16 := by omega
    rw [List.foldl_cons, ih, BitVec.toNat_add, BitVec.toNat_setWidth, Nat.mod_eq_of_lt hb, Nat.mod_add_mod,
      List.map_cons, List.sum_cons, Nat.add_assoc]

/-- The total of R125: the seed and the data, added as numbers. -/
def cksTotal (seed : Byte) (d : List Byte) : Nat := seed.toNat + (d.map BitVec.toNat).sum

theorem cksTotal_append_0xFF (seed : Byte) (d : List Byte) :
    cksTotal seed (d ++ [0xFF]) = cksTotal seed d + 255 := by
  rw [cksTotal, List.map_append, List.sum_append, ← Nat.add_assoc]
  rfl

theorem cksSum_toNat {seed : Byte} {d : List Byte} (h : cksTotal seed d < 2 ^ 16) :
    (cksSum seed d).toNat = cksTotal seed d := by
  rw [cksSum, foldl_add_setWidth_toNat, BitVec.toNat_setWidth, Nat.mod_add_mod]
  exact Nat.mod_eq_of_lt h

/-- The first fold adds the high byte to the low one, without overflow. -/
theorem cksFold1_toNat (x : BitVec 16) : (cksFold1 x).toNat = x.toNat % 256 + x.toNat / 256 := by
  have hfold : (cksFold1 x).toNat = ((x.toNat &&& (2 ^ 8 - 1)) + x.toNat >>> 8) % 2 ^ 16 := rfl
  rw [hfold, Nat.and_two_pow_sub_one_eq_mod, Nat.shiftRight_eq_div_pow]
  omega

theorem cksFold2_toNat (x : BitVec 16) : (cksFold2 x).toNat = (x.toNat + x.toNat / 256) % 2 ^ 16 := by
  rw [cksFold2, BitVec.toNat_add, BitVec.toNat_ushiftRight, Nat.shiftRight_eq_div_pow]

/-! ### The law of R125 -/

/-- The number `r` of R125: 0 for 0, otherwise the number in 1..255 equal to `n` mod 255. -/
def residue255 (n : Nat) : Nat := if n = 0 then 0 else (n - 1) % 255 + 1

theorem residue255_of_pos {n : Nat} (h : 0 < n) : residue255 n = (n - 1) % 255 + 1 := if_neg h.ne'

theorem residue255_add_255 {n : Nat} (h : 0 < n) : residue255 (n + 255) = residue255 n := by
  rw [residue255_of_pos h, residue255_of_pos (Nat.add_pos_left h 255), Nat.sub_add_comm h, Nat.add_mod_right]

/-- The first fold takes 255 off as often as 256 goes into `n`, so the residue stays. -/
theorem residue255_fold (n : Nat) : residue255 (n % 256 + n / 256) = residue255 n := by
  obtain rfl | hpos := Nat.eq_zero_or_pos n
  · rfl
  · have hsub : n - 1 = n % 256 + n / 256 - 1 + 255 * (n / 256) := by omega
    rw [residue255_of_pos hpos, hsub, Nat.add_mul_mod_self_left, residue255_of_pos (by omega)]

/-- Up to 255 the second fold adds nothing; above, it adds 1 and the low byte drops 256. -/
theorem second_fold_mod_256 {a : Nat} (ha : a ≤ 510) : (a + a / 256) % 256 = residue255 a := by
  obtain rfl | hpos := Nat.eq_zero_or_pos a
  · rfl
  · rw [residue255_of_pos hpos]
    obtain hle | hgt := le_or_gt a 255 <;> omega

/-- The checksum is the complement of the low byte of the two folds. -/
theorem cks_toNat_folds (seed : Byte) (d : List Byte) :
    (cks seed d).toNat = 255 - (cksFold2 (cksFold1 (cksSum seed d))).toNat % 256 := by
  rw [cks, BitVec.toNat_setWidth, BitVec.toNat_not]
  omega

theorem cks_toNat {seed : Byte} {d : List Byte} (h : cksTotal seed d < 2 ^ 16) :
    (cks seed d).toNat = 255 - residue255 (cksTotal seed d) := by
  rw [cks_toNat_folds, cksFold2_toNat, Nat.mod_mod_of_dvd _ (by decide), cksFold1_toNat, cksSum_toNat h,
    second_fold_mod_256 (by omega), residue255_fold]

theorem cks_append_0xFF {seed : Byte} {d : List Byte} (hpos : 0 < cksTotal seed d)
    (h : cksTotal seed d + 255 < 2 ^ 16) : cks seed (d ++ [0xFF]) = cks seed d := by
  have htotal := cksTotal_append_0xFF seed d
  apply BitVec.eq_of_toNat_eq
  rw [cks_toNat (htotal ▸ h), htotal, residue255_add_255 hpos, cks_toNat (Nat.lt_of_add_right_lt h)]

/-- Settles O21: the two folds leave the residue of R125, which 255 more does not change. -/
theorem checksumIsModulo255 : Obligations.ChecksumIsModulo255 :=
  fun _ _ h => ⟨cks_toNat h, cks_append_0xFF⟩

/-! ### The dispatch of R124 -/

section

variable {w : Nat} (fid : BitVec w) (d : List Byte)

theorem frameCks_of_ge (h : 0x3C ≤ fid.toNat % 64) : frameCks fid d = classicCks d :=
  if_pos (BitVec.le_def.mpr ((maskFid_toNat fid).symm ▸ h))

theorem frameCks_of_lt (h : fid.toNat % 64 < 0x3C) : frameCks fid d = enhancedCks (maskFid fid) d :=
  if_neg (BitVec.not_le.mpr (BitVec.lt_def.mpr ((maskFid_toNat fid).symm ▸ h)))

end

/-- Settles O22: the boundary is 0x3C, and below it the seed is the PID of the masked identifier. -/
theorem frameChecksumDispatch : Obligations.FrameChecksumDispatch :=
  ⟨fun fid d => ⟨frameCks_of_ge fid d, frameCks_of_lt fid d, rfl, rfl⟩, by decide⟩

end Sys2Proof.Machine
end

section
/-! PROOFS. The break: flush and halve the rate, send 0x00, flush and restore the rate (41_break_generator.md R140,
R141, R142). -/

namespace Sys2Proof.Machine

section

variable {s : State}

theorem seqStep_brkSend (hs : s.block.f.state = .brkSend) : seqStep s = seqBrkSend s := by
  rw [seqStep, hs]

theorem seqBrkFlush1_waiting (h : s.txEmpty = false) : seqBrkFlush1 s = .next s :=
  if_neg (Bool.eq_false_iff.mp h)

theorem seqBrkFlush1_empty (h : s.txEmpty = true) :
    seqBrkFlush1 s = .next (s.mapBlock fun b => (b.setBaud b.halfBaud).goto .brkSend) :=
  if_pos h

theorem seqBrkSend_waiting (h : s.uart.txReady = false) : seqBrkSend s = .next s :=
  if_neg (Bool.eq_false_iff.mp h)

theorem seqBrkSend_ready (h : s.uart.txReady = true) :
    seqBrkSend s = .next ((s.txPush 0x00).mapBlock (Block.goto .brkFlush2)) :=
  if_pos h

theorem seqBrkFlush2_waiting (h : s.txEmpty = false) : seqBrkFlush2 s = .next s :=
  if_neg (Bool.eq_false_iff.mp h)

/-- SEND_BREAK is done with the line, and the wake delay begins. -/
theorem seqBrkFlush2_breakSent (h : s.txEmpty = true) (hop : s.block.f.op = .brk) :
    seqBrkFlush2 s = .next (s.mapBlock fun b => (b.setBaud b.baud).startTimer s.nowMs .wakeDelay) := by
  rw [seqBrkFlush2, if_pos h]
  exact next_mapBlock (if_pos hop)

/-- The break of a frame is sent, and Sync follows. -/
theorem seqBrkFlush2_syncDue (h : s.txEmpty = true) (hop : s.block.f.op ≠ .brk) :
    seqBrkFlush2 s = .next (s.mapBlock fun b => (b.setBaud b.baud).goto .txSync) := by
  rw [seqBrkFlush2, if_pos h]
  exact next_mapBlock (if_neg hop)

end

/-- Settles O23: each of the three states holds on its condition, and the end of BRK_FLUSH2 depends on the
operation. -/
theorem breakGeneratorSteps : Obligations.BreakGeneratorSteps := by
  intro s
  refine ⟨fun hs => ?_, fun hs => ?_, fun hs => ?_⟩
  · rw [seqStep_brkFlush1 hs]
    exact ⟨seqBrkFlush1_waiting, seqBrkFlush1_empty⟩
  · rw [seqStep_brkSend hs]
    exact ⟨seqBrkSend_waiting, seqBrkSend_ready⟩
  · rw [seqStep_brkFlush2 hs]
    exact ⟨seqBrkFlush2_waiting, seqBrkFlush2_breakSent, seqBrkFlush2_syncDue⟩

end Sys2Proof.Machine
end

section
/-! PROOFS. Draining, flushing and the two delays (41_break_generator.md R147, 43_framer_commands.md R216, R217,
R219). -/

namespace Sys2Proof.Machine

section

variable {s : State}

theorem State.deadline_eq_false_iff (s : State) (t : Word) :
    s.deadline t = false ↔ (elapsed s.nowMs s.block.f.t0).toNat < t.toNat := by
  rw [← Bool.not_eq_true, State.deadline_eq_true_iff, Nat.not_le]

theorem State.rxPop_nil (h : s.uart.rxFifo = []) : s.rxPop = none :=
  s.rxPop_eq_none_iff.mpr h

theorem State.rxPop_cons {byte : Byte} {rest : List Byte} (h : s.uart.rxFifo = byte :: rest) :
    s.rxPop = some (byte, { s with uart := { s.uart with rxFifo := rest } }) :=
  (s.rxPop_eq_some_iff _ byte).mpr ⟨rest, h, rfl⟩

/-! ### DRAIN -/

theorem seqStep_drain (hs : s.block.f.state = .drain) : seqStep s = seqDrain s := by
  rw [seqStep, hs]

/-- A drain never fails (R216). -/
theorem seqDrain_over (h : s.block.f.k = 0 ∨ s.deadline Config.tFrameMs = true) :
    seqDrain s = .next (s.mapBlock (Block.finish true)) := by
  unfold seqDrain
  by_cases hk : s.block.f.k = 0
  · rw [if_pos hk]
  · rw [if_neg hk, if_pos (h.resolve_left hk)]

theorem seqDrain_waiting (hk : s.block.f.k ≠ 0) (hd : s.deadline Config.tFrameMs = false)
    (hf : s.uart.rxFifo = []) : seqDrain s = .next s := by
  rw [seqDrain, if_neg hk, if_neg (Bool.eq_false_iff.mp hd), State.rxPop_nil hf]

theorem seqDrain_discards {byte : Byte} {rest : List Byte} (hk : s.block.f.k ≠ 0)
    (hd : s.deadline Config.tFrameMs = false) (hf : s.uart.rxFifo = byte :: rest) :
    seqDrain s = .next { s with
      block := { s.block with f := { s.block.f with k := s.block.f.k - 1 } }
      uart := { s.uart with rxFifo := rest } } := by
  rw [seqDrain, if_neg hk, if_neg (Bool.eq_false_iff.mp hd), State.rxPop_cons hf]
  rfl

/-! ### RX_FLUSHING -/

theorem seqStep_rxFlushing (hs : s.block.f.state = .rxFlushing) : seqStep s = seqRxFlushing s := by
  rw [seqStep, hs]

theorem seqRxFlushing_done (hf : s.uart.rxFifo = []) :
    seqRxFlushing s = .next (s.mapBlock (Block.finish true)) := by
  rw [seqRxFlushing, State.rxPop_nil hf]

theorem seqRxFlushing_discards {byte : Byte} {rest : List Byte} (hf : s.uart.rxFifo = byte :: rest) :
    seqRxFlushing s = .next { s with uart := { s.uart with rxFifo := rest } } := by
  rw [seqRxFlushing, State.rxPop_cons hf]

/-! ### FAIL_DELAY -/

theorem seqStep_failDelay (hs : s.block.f.state = .failDelay) : seqStep s = seqFailDelay s := by
  rw [seqStep, hs]

theorem seqFailDelay_expired (h : s.deadline s.params.tFailDelayMs = true) :
    seqFailDelay s = .next (s.mapBlock (Block.finish false)) :=
  if_pos h

theorem seqFailDelay_waiting (h : s.deadline s.params.tFailDelayMs = false) : seqFailDelay s = .next s :=
  if_neg (Bool.eq_false_iff.mp h)

end

/-- Settles O29: each clause is the branch its deadline and the FIFO select. -/
theorem drainFlushAndDelaySteps : Obligations.DrainFlushAndDelaySteps := by
  intro s finished elapsedMs
  have reached (t : Word) (h : t.toNat ≤ elapsedMs) : s.deadline t = true := (s.deadline_eq_true_iff t).mpr h
  have running (t : Word) (h : elapsedMs < t.toNat) : s.deadline t = false := (s.deadline_eq_false_iff t).mpr h
  refine ⟨fun hs => ?_, fun hs => ?_, fun hs => ?_, fun hs => ?_⟩
  · rw [seqStep_drain hs]
    refine ⟨fun h => seqDrain_over (h.imp_right (reached Config.tFrameMs)), fun hk ht => ?_⟩
    have hd := running Config.tFrameMs ht
    exact ⟨seqDrain_waiting hk hd, fun _ _ => seqDrain_discards hk hd⟩
  · rw [seqStep_rxFlushing hs]
    exact ⟨seqRxFlushing_done, fun _ _ => seqRxFlushing_discards⟩
  · exact ⟨fun h => seqStep_wakeDelay_expired hs (reached _ h),
      fun h => seqStep_wakeDelay_waiting hs (Bool.eq_false_iff.mp (running _ h))⟩
  · rw [seqStep_failDelay hs]
    exact ⟨fun h => seqFailDelay_expired (reached _ h), fun h => seqFailDelay_waiting (running _ h)⟩

end Sys2Proof.Machine
end

section
/-! PROOFS. The reader's table, row by row, and when the reader is complete (42_frame_reader.md R161 to R174). -/

namespace Sys2Proof.Machine

/-! ### Completion -/

theorem Reader.complete_eq_true_iff (r : Reader) :
    r.complete = true ↔ (r.state = .frameComplete ∨ (r.len = 0 ∧ r.state = .waitForData)) := by
  simp [Reader.complete]

/-- Settles O32. -/
theorem completionRule : Obligations.CompletionRule := Reader.complete_eq_true_iff

theorem seqStep_rxPoll {s : State} (hs : s.block.f.state = .rxPoll) : seqStep s = seqRxPoll s := by
  rw [seqStep, hs]

theorem seqRxPoll_complete {s : State} (hc : s.block.r.complete = true) :
    seqRxPoll s = .next (s.mapBlock Block.complete) :=
  if_pos hc

/-! ### The rows -/

section

variable {r : Reader}

/-- R161, R162. -/
theorem Reader.processByte_waitForBreak (h : r.state = .waitForBreak) (b : Byte) :
    r.processByte b = some ⟨if b = 0x00 then { r with state := .waitForSync } else r, false⟩ := by
  simp [Reader.processByte, Reader.complete, h]

/-- R163, R164. -/
theorem Reader.processByte_waitForSync (h : r.state = .waitForSync) (b : Byte) :
    r.processByte b = some ⟨if b = 0x55 then { r with state := .waitForPid } else r.toBreak, false⟩ := by
  simp [Reader.processByte, Reader.complete, h]

/-- R165, R166. -/
theorem Reader.processByte_waitForPid (h : r.state = .waitForPid) (b : Byte) :
    r.processByte b = some ⟨if b = r.pid then { r with state := .waitForData } else r.toBreak, false⟩ := by
  simp [Reader.processByte, Reader.complete, h]

/-- Where data is expected, WaitForData appends (R167). -/
theorem Reader.processByte_waitForData (h : r.state = .waitForData) (hlen : r.len ≠ 0) (b : Byte) :
    r.processByte b = (r.append b).map (⟨·, false⟩) := by
  have hc : ¬ r.complete = true := by
    rw [Reader.complete_eq_true_iff, h]
    rintro (hs | ⟨hl, -⟩)
    exacts [absurd hs nofun, hlen hl]
  rw [Reader.processByte, if_neg hc, h]
  cases r.append b <;> rfl

/-- R169, R170. -/
theorem Reader.processByte_waitForChecksum (h : r.state = .waitForChecksum) (b : Byte) :
    r.processByte b = some
      (if b = r.expectedCks then ⟨{ r with state := .frameComplete }, false⟩ else ⟨r.toBreak, true⟩) := by
  simp [Reader.processByte, Reader.complete, h, apply_ite some]

/-- With room left, an append puts the byte at the count and moves on at the last one (R167, R168). -/
theorem Reader.append_room (hlen : r.len.toNat ≤ 8) (hroom : r.count.toNat < r.len.toNat) (b : Byte) :
    ∃ buf : Bytes8, buf.toList = r.buf.toList.set r.count.toNat b ∧
      r.append b = some { r with
        buf := buf
        count := r.count + 1
        state := if r.count.toNat + 1 = r.len.toNat then .waitForChecksum else .waitForData } := by
  have hset : r.buf.set? r.count.toNat b ≠ none := by
    rw [Ne, Bytes8.set?_eq_none_iff]
    omega
  obtain ⟨buf, hbuf⟩ := Option.ne_none_iff_exists'.mp hset
  have hlast : r.count + 1 = r.len ↔ r.count.toNat + 1 = r.len.toNat := by
    rw [← BitVec.toNat_inj, idx_succ_toNat hlen hroom]
  refine ⟨buf, (Bytes8.set?_toList hbuf).2, ?_⟩
  simp only [Reader.append, if_pos (BitVec.lt_def.mpr hroom), hbuf, hlast]

end

/-! ### The statements -/

/-- Settles O30: each clause is the branch of its row; IDLE and a complete reader leave the FIFO as it is. -/
theorem readerFollowsTheTable : Obligations.ReaderFollowsTheTable := by
  constructor
  · intro r b reset
    refine ⟨fun h => ?_, fun h => ?_, fun h => ?_, fun h => ?_, fun h => Reader.processByte_complete h b⟩
    · rw [Reader.processByte_waitForBreak h]
      exact ⟨fun hb => by rw [if_pos hb], fun hb => by rw [if_neg hb]⟩
    · rw [Reader.processByte_waitForSync h]
      exact ⟨fun hb => by rw [if_pos hb], fun hb => by rw [if_neg hb]; rfl⟩
    · rw [Reader.processByte_waitForPid h]
      exact ⟨fun hb => by rw [if_pos hb], fun hb => by rw [if_neg hb]; rfl⟩
    · rw [Reader.processByte_waitForChecksum h]
      exact ⟨fun hb => congrArg some (if_pos hb), fun hb => congrArg some (if_neg hb)⟩
  · rintro s t (hs | ⟨hs, hc⟩) h
    · rw [seqStep_idle hs] at h
      rw [← Host.Outcome.next.inj h]
    · rw [seqStep_rxPoll hs, seqRxPoll_complete hc] at h
      rw [← Host.Outcome.next.inj h]
      rfl

/-- Settles O31. -/
theorem readerAppendsData : Obligations.ReaderAppendsData := by
  intro r b hs hlen hroom
  have hne : r.len ≠ 0 := by bv_omega
  obtain ⟨buf, hbuf, happ⟩ := Reader.append_room hlen hroom b
  exact ⟨buf, hbuf, by rw [Reader.processByte_waitForData hs hne, happ]; rfl⟩

end Sys2Proof.Machine
end

section
/-! PROOFS. Runs of bytes through the reader: noise, stale zeros, and a whole frame (42_frame_reader.md R160, R176,
70_reset_and_hazards.md R297). -/

namespace Sys2Proof.Machine

section

variable {r : Reader}

/-- A byte without a mismatch leaves the rest of the run to the reader after it. -/
theorem Reader.feed_cons {r' : Reader} {b : Byte} (h : r.processByte b = some ⟨r', false⟩) (bs : List Byte) :
    r.feed (b :: bs) = r'.feed bs := by
  simp only [Reader.feed, h, Bool.false_or]
  cases r'.feed bs <;> rfl

/-! ### Before the header -/

/-- A run without a 0x00 leaves a reader that waits for a break as it is (R162). -/
theorem Reader.feed_noise (h : r.state = .waitForBreak) {noise : List Byte} (hn : ∀ x ∈ noise, x ≠ 0x00)
    (bs : List Byte) : r.feed (noise ++ bs) = r.feed bs := by
  induction noise with
  | nil => rfl
  | cons x noise ih =>
    obtain ⟨hx, hrest⟩ := List.forall_mem_cons.mp hn
    have hstay : r.processByte x = some ⟨r, false⟩ := by rw [Reader.processByte_waitForBreak h, if_neg hx]
    exact (Reader.feed_cons hstay _).trans (ih hrest)

theorem Reader.feed_zero (h : r.state = .waitForBreak) (bs : List Byte) :
    r.feed (0x00 :: bs) = ({ r with state := .waitForSync } : Reader).feed bs :=
  Reader.feed_cons (by rw [Reader.processByte_waitForBreak h, if_pos rfl]) bs

/-- A second 0x00 undoes the first: it is no Sync, and not taken as a new break (R164). -/
theorem Reader.feed_zeroPair (h : r.state = .waitForBreak) (hc : r.count = 0) (bs : List Byte) :
    r.feed (0x00 :: 0x00 :: bs) = r.feed bs := by
  have hback : ({ r with state := .waitForSync } : Reader).toBreak = r := by
    rw [Reader.toBreak, ← h, ← hc]
  rw [Reader.feed_zero h, Reader.feed_cons (Reader.processByte_waitForSync rfl _), if_neg (by decide), hback]

theorem Reader.feed_zeroPairs (h : r.state = .waitForBreak) (hc : r.count = 0) (j : Nat) (bs : List Byte) :
    r.feed (List.replicate (2 * j) 0x00 ++ bs) = r.feed bs := by
  induction j with
  | zero => rfl
  | succ j ih => exact (Reader.feed_zeroPair h hc _).trans ih

/-! ### The header, the data and the checksum -/

/-- Break, Sync and the expected PID lead to WaitForData (R161, R163, R165). -/
theorem Reader.feed_header (h : r.state = .waitForBreak) (bs : List Byte) :
    r.feed ([0x00, 0x55, r.pid] ++ bs) = ({ r with state := .waitForData } : Reader).feed bs := by
  have hsync := Reader.processByte_waitForSync (r := { r with state := .waitForSync }) rfl 0x55
  have hpid := Reader.processByte_waitForPid (r := { r with state := .waitForPid }) rfl r.pid
  rw [if_pos rfl] at hsync hpid
  exact (Reader.feed_zero h _).trans ((Reader.feed_cons hsync _).trans (Reader.feed_cons hpid _))

/-- A data byte is held behind those before it (R167, R168). -/
theorem Reader.feed_dataByte (h : r.state = .waitForData) (hlen : r.len.toNat ≤ 8)
    (hroom : r.count.toNat < r.len.toNat) (d : Byte) (bs : List Byte) :
    ∃ buf : Bytes8, buf.first (r.count.toNat + 1) = r.buf.first r.count.toNat ++ [d] ∧
      r.feed (d :: bs) = ({ r with
        buf := buf
        count := r.count + 1
        state := if r.count.toNat + 1 = r.len.toNat then .waitForChecksum else .waitForData } : Reader).feed bs := by
  obtain ⟨buf, hbuf, hstep⟩ := readerAppendsData r d h hlen hroom
  have hlt : r.count.toNat < r.buf.toList.length := by
    rw [Bytes8.toList_length]
    omega
  refine ⟨buf, ?_, Reader.feed_cons hstep bs⟩
  rw [Bytes8.first, Bytes8.first, hbuf, List.take_add_one, List.take_set_of_le le_rfl, List.getElem?_set_self hlt,
    Option.toList_some]

/-- The bytes that fill the buffer up to `r.len` are held in order behind those before, and the reader then waits for
the checksum (R167, R168). -/
theorem Reader.feed_data {d : Byte} {ds : List Byte} (h : r.state = .waitForData) (hlen : r.len.toNat ≤ 8)
    (hfill : r.count.toNat + (d :: ds).length = r.len.toNat) (bs : List Byte) :
    ∃ buf : Bytes8, buf.first r.len.toNat = r.buf.first r.count.toNat ++ d :: ds ∧
      r.feed (d :: ds ++ bs) =
        ({ r with state := .waitForChecksum, count := r.len, buf := buf } : Reader).feed bs := by
  induction ds generalizing r d with
  | nil =>
    have hroom : r.count.toNat < r.len.toNat := hfill ▸ Nat.lt_succ_self _
    obtain ⟨buf, hbuf, hfeed⟩ := Reader.feed_dataByte h hlen hroom d bs
    have hfull : r.count + 1 = r.len := by rw [← BitVec.toNat_inj, idx_succ_toNat hlen hroom, ← hfill]; rfl
    have hone : r.count.toNat + 1 = r.len.toNat := hfill
    rw [if_pos hone, hfull] at hfeed
    exact ⟨buf, hone ▸ hbuf, hfeed⟩
  | cons d' ds ih =>
    have hrest : r.count.toNat + ((d' :: ds).length + 1) = r.len.toNat := hfill
    have hroom : r.count.toNat < r.len.toNat := by omega
    have hnext := idx_succ_toNat hlen hroom
    obtain ⟨buf, hbuf, hfeed⟩ := Reader.feed_dataByte h hlen hroom d (d' :: ds ++ bs)
    rw [if_neg (by rw [List.length_cons] at hrest; omega)] at hfeed
    obtain ⟨buf', hbuf', hfeed'⟩ := ih (r := { r with buf := buf, count := r.count + 1, state := .waitForData })
      (d := d') rfl hlen
      (by rw [← hrest, hnext, Nat.add_right_comm, Nat.add_assoc])
    refine ⟨buf', ?_, hfeed.trans hfeed'⟩
    rw [hbuf', hnext, hbuf, List.append_assoc]
    rfl

/-- The expected checksum completes the frame (R169). -/
theorem Reader.feed_checksum (h : r.state = .waitForChecksum) {b : Byte} (hb : b = r.expectedCks) :
    r.feed [b] = some ⟨{ r with state := .frameComplete }, false⟩ := by
  have hcks := Reader.processByte_waitForChecksum h b
  rw [if_pos hb] at hcks
  exact Reader.feed_cons hcks []

/-- A frame of the length the reader expects completes it, with the data in its buffer (R161 to R169, R173). -/
theorem Reader.feed_frame (h : r.state = .waitForBreak) (hc : r.count = 0) {data : List Byte}
    (hlen : r.len.toNat = data.length) (hfits : data.length ≤ 8) :
    ∃ r' : Reader,
      r.feed ([0x00, 0x55, r.pid] ++ (data ++ if data = [] then [] else [frameCks r.fid data])) = some ⟨r', false⟩ ∧
      r'.complete = true ∧ r'.count.toNat = data.length ∧ r'.buf.first data.length = data := by
  rw [Reader.feed_header h]
  cases data with
  | nil =>
    have hzero : r.len = 0 := BitVec.eq_of_toNat_eq hlen
    exact ⟨_, rfl, (Reader.complete_eq_true_iff _).mpr (.inr ⟨hzero, rfl⟩), congrArg BitVec.toNat hc, rfl⟩
  | cons d ds =>
    obtain ⟨buf, hbuf, hfeed⟩ := Reader.feed_data (r := { r with state := .waitForData }) (d := d) (ds := ds) rfl
      (hlen.trans_le hfits) (by rw [hlen, hc]; exact Nat.zero_add _) [frameCks r.fid (d :: ds)]
    have hdata : buf.first r.len.toNat = d :: ds := by
      rw [hbuf, hc]
      rfl
    have hcks : frameCks r.fid (d :: ds) = frameCks r.fid (buf.first r.len.toNat) := by rw [hdata]
    rw [if_neg (List.cons_ne_nil d ds), hfeed]
    exact ⟨_, Reader.feed_checksum rfl hcks, rfl, hlen, hlen ▸ hdata⟩

end

/-! ### The statements -/

/-- A started reader waits for the break of the frame it was started for, and for its PID (R160). -/
theorem Reader.start_eq (fid : FrameId) (len : BitVec 4) (r : Reader) :
    r.start fid len = { r with state := .waitForBreak, count := 0, fid := fid, pid := Machine.pid fid, len := len } := by
  rw [Reader.start, pid_maskFid, maskFid_frameId]

/-- Settles O33: the noise leaves the started reader as it is, and the frame completes it. -/
theorem noiseThenFrameCompletes : Obligations.NoiseThenFrameCompletes := by
  intro r fid data noise hlen hnoise
  have hn : (BitVec.ofNat 4 data.length).toNat = data.length :=
    (BitVec.toNat_ofNat _ _).trans (Nat.mod_eq_of_lt (by omega))
  rw [Reader.start_eq, List.append_assoc, List.append_assoc, Reader.feed_noise rfl hnoise]
  exact Reader.feed_frame rfl rfl hn hlen

/-- Settles O34: the stale zeros undo each other two by two; an odd one left over takes the break for itself and
the 0x00 of the header undoes it, and Sync and PID are then bytes before a break. -/
theorem staleZerosParity : Obligations.StaleZerosParity := by
  intro r fid len k
  rw [Reader.start_eq]
  obtain ⟨j, rfl | rfl⟩ := Nat.even_or_odd' k
  · rw [Reader.feed_zeroPairs rfl rfl]
    exact ⟨_, Reader.feed_header rfl [], rfl, rfl, rfl, fun _ => rfl, fun hk => by omega⟩
  · have hpaired : List.replicate (2 * j + 1) 0x00 ++ [0x00, 0x55, pid fid] =
        List.replicate (2 * (j + 1)) 0x00 ++ [0x55, pid fid] := by
      rw [Nat.mul_succ, List.replicate_succ' (n := 2 * j + 1), List.append_assoc]
      rfl
    have hnoise : ∀ x ∈ [0x55, pid fid], x ≠ 0x00 := by
      simpa using pid_ne_zero fid
    rw [hpaired, Reader.feed_zeroPairs rfl rfl, ← List.append_nil [0x55, pid fid], Reader.feed_noise rfl hnoise]
    exact ⟨_, rfl, rfl, rfl, rfl, fun hk => by omega, fun _ => rfl⟩

end Sys2Proof.Machine
end

section
/-! PROOFS. What stops the machine: under the invariant neither the sequencer nor the reader, so only a host access
(42_frame_reader.md R174, 43_framer_commands.md R210, R213, 60_exceptions.md R260). -/

namespace Sys2Proof.Machine

/-! ### The reader and the sequencer always have a rule -/

/-- An incomplete legal reader has a transition for every byte (R161 to R170, R174). -/
theorem Reader.Legal.exists_processByte {r : Reader} (h : r.Legal) (hc : r.complete = false) (b : Byte) :
    ∃ st, r.processByte b = some st := by
  obtain ⟨hlen, -, hshape⟩ := h
  cases hs : r.state <;> rw [hs] at hshape
  case waitForBreak => exact ⟨_, Reader.processByte_waitForBreak hs b⟩
  case waitForSync => exact ⟨_, Reader.processByte_waitForSync hs b⟩
  case waitForPid => exact ⟨_, Reader.processByte_waitForPid hs b⟩
  case waitForChecksum => exact ⟨_, Reader.processByte_waitForChecksum hs b⟩
  case waitForData =>
    have hroom : r.count < r.len := hshape.resolve_right fun ⟨hzero, _⟩ =>
      absurd ((Reader.complete_eq_true_iff r).mpr (.inr ⟨hzero, hs⟩)) (Bool.eq_false_iff.mp hc)
    obtain ⟨buf, -, hstep⟩ := readerAppendsData r b hs hlen hroom
    exact ⟨_, hstep⟩
  case frameComplete =>
    exact absurd ((Reader.complete_eq_true_iff r).mpr (.inl hs)) (Bool.eq_false_iff.mp hc)

section

variable {s : State}

/-- A rule that fires on a condition and else holds always answers a next state. -/
theorem exists_next_ite (c : Prop) [Decidable c] (t u : State) :
    ∃ v, (if c then .next t else .next u : StepOutcome) = .next v := by
  split
  exacts [⟨t, rfl⟩, ⟨u, rfl⟩]

/-- In TX_DATA the index names a byte of DATA, since it is below LEN and LEN is at most 8 (R201, R213). -/
theorem seqTxData_completes (h : s.block.Inv) (hs : s.block.f.state = .txData) : ∃ t, seqTxData s = .next t := by
  have hidx : s.block.f.idx < s.block.len := h.counters.1 hs
  have hop : s.block.f.op = .write := by simpa [hs, opFits] using h.op
  have hlen : s.block.len ≤ 8 := h.len_le (by simp [hs]) (by rw [hop]; rfl)
  obtain ⟨d, hd⟩ := Option.isSome_iff_exists.mp
    ((Bytes8.get?_isSome_iff s.block.data s.block.f.idx.toNat).mpr (by bv_omega))
  rw [seqTxData, if_pos hidx, hd]
  exact exists_next_ite _ _ _

/-- In RX_POLL a byte is given to an incomplete reader only (R210). -/
theorem seqRxPoll_completes (h : s.block.r.Legal) : ∃ t, seqRxPoll s = .next t := by
  unfold seqRxPoll
  split
  · exact ⟨_, rfl⟩
  · rename_i hc
    split
    · exact ⟨_, rfl⟩
    · split
      · exact ⟨_, rfl⟩
      · rename_i byte s' _
        obtain ⟨st, hst⟩ := h.exists_processByte (Bool.eq_false_iff.mpr hc) byte
        exact ⟨_, by rw [hst]⟩

theorem seqDrain_completes (s : State) : ∃ t, seqDrain s = .next t := by
  by_cases hover : s.block.f.k = 0 ∨ s.deadline Config.tFrameMs = true
  · exact ⟨_, seqDrain_over hover⟩
  · obtain ⟨hk, hd⟩ := not_or.mp hover
    rw [Bool.not_eq_true] at hd
    cases hf : s.uart.rxFifo with
    | nil => exact ⟨_, seqDrain_waiting hk hd hf⟩
    | cons byte rest => exact ⟨_, seqDrain_discards hk hd hf⟩

theorem seqRxFlushing_completes (s : State) : ∃ t, seqRxFlushing s = .next t := by
  cases hf : s.uart.rxFifo with
  | nil => exact ⟨_, seqRxFlushing_done hf⟩
  | cons byte rest => exact ⟨_, seqRxFlushing_discards hf⟩

/-- Under the invariant every state of the sequencer has a step rule. -/
theorem seqStep_completes (h : s.block.Inv) : ∃ t, seqStep s = .next t := by
  cases hs : s.block.f.state <;> simp only [seqStep, hs]
  case idle => exact ⟨s, rfl⟩
  case txData => exact seqTxData_completes h hs
  case rxPoll => exact seqRxPoll_completes h.reader
  case drain => exact seqDrain_completes s
  case rxFlushing => exact seqRxFlushing_completes s
  all_goals exact exists_next_ite _ _ _

theorem blockMove_completes (h : s.block.Inv) : ∃ t, blockMove s = .next t := by
  unfold blockMove
  split
  exacts [⟨_, rfl⟩, seqStep_completes h]

end

/-! ### The register access port -/

/-- An access the port has no meaning for: not 32 bits wide, or its word does not decode (R62). -/
def UndefinedAccess (width : AccessWidth) (word : HostWord) : Prop :=
  width ≠ .w32 ∨ ∃ e, decode word = .error e

/-- Only a misaligned transaction does not decode (R99). -/
theorem offset_of_decode_error {word : HostWord} {e : DecodeError} (h : decode word = .error e) :
    ∃ txn v, word = .bus txn v ∧ offsetAligned (txnOffset txn) = false := by
  cases word with
  | cmd w => cases h
  | bus txn v =>
    cases hal : offsetAligned (txnOffset txn)
    · exact ⟨txn, v, rfl, hal⟩
    · simp [decode, hal] at h

/-- An undefined access is not well-formed (R62). -/
theorem UndefinedAccess.accessWellFormed {width : AccessWidth} {word : HostWord} (h : UndefinedAccess width word) :
    accessWellFormed width word = false := by
  have hlow : ∀ txn : BitVec 7, offsetAligned (txnOffset txn) = false → (txn.extractLsb' 0 2 == 0#2) = false := by
    decide
  obtain hw | ⟨e, he⟩ := h
  · cases width
    case w32 => exact absurd rfl hw
    all_goals rfl
  · obtain ⟨txn, v, rfl, hal⟩ := offset_of_decode_error he
    simp [Sys2Proof.accessWellFormed, HostWord.wellFormed, hlow txn hal]

/-- Inside the window an undefined access is narrow, wide or misaligned (R60, R62). -/
theorem UndefinedAccess.misaligned {width : AccessWidth} {write : Bool} {rel value : Word}
    (h : UndefinedAccess width (.bus (mkTxn write (rel.setWidth 6)) value)) : width ≠ .w32 ∨ rel.toNat % 4 ≠ 0 := by
  have haligned : ∀ off : BitVec 6, off.toNat % 4 = 0 → offsetAligned off = true := by decide
  refine h.imp_right fun ⟨e, he⟩ hrel => ?_
  obtain ⟨txn, v, heq, hal⟩ := offset_of_decode_error he
  obtain ⟨rfl, -⟩ := HostWord.bus.inj heq
  rw [txnOffset_mkTxn, haligned _ (by rw [BitVec.toNat_setWidth]; omega)] at hal
  cases hal

/-- The port answers a next state, or BusError of an undefined access (R62, R263). -/
theorem hostAccess_outcome (width : AccessWidth) (word : HostWord) (s : State) :
    (∃ t, hostAccess width word s = .next t) ∨
    (∃ off, hostAccess width word s = .fault (.busError off) ∧ UndefinedAccess width word) := by
  cases width
  case w32 =>
    cases hd : decode word with
    | ok i =>
      left
      simpa only [hostAccess, hd] using exec_completes i s
    | error e =>
      obtain ⟨off⟩ := e
      exact .inr ⟨off, by simp only [hostAccess, hd], .inr ⟨_, hd⟩⟩
  all_goals exact .inr ⟨wordOffset word, rfl, .inl nofun⟩

/-- So it is while `rst` is 1 (R290). -/
theorem hostMove_outcome (width : AccessWidth) (word : HostWord) (s : State) :
    (∃ t, hostMove width word s = .next t) ∨
    (∃ off, hostMove width word s = .fault (.busError off) ∧ UndefinedAccess width word) := by
  unfold hostMove
  split
  · obtain ⟨t, h⟩ | ⟨off, h, hundef⟩ := hostAccess_outcome width word s.resetStep <;> rw [h]
    exacts [.inl ⟨_, rfl⟩, .inr ⟨off, rfl, hundef⟩]
  · exact hostAccess_outcome width word s

/-- An access at a platform address is one inside the window, or refused outside it (R60, R61). -/
theorem hostMoveAt_outcome (width : AccessWidth) (write : Bool) (addr value : Word) (s : State) :
    (∃ t, hostMoveAt width write addr value s = .next t) ∨
    (∃ off, hostMoveAt width write addr value s = .fault (.busError off) ∧
      (width ≠ .w32 ∨ (addr - s.params.linBase).toNat % 4 ≠ 0)) ∨
    (hostMoveAt width write addr value s = .refused (.outsideWindow addr) ∧
      64 ≤ (addr - s.params.linBase).toNat) := by
  unfold hostMoveAt
  dsimp only
  split
  · obtain hnext | ⟨off, h, hundef⟩ := hostMove_outcome width
      (.bus (mkTxn write ((addr - s.params.linBase).setWidth 6)) value) s
    exacts [.inl hnext, .inr (.inl ⟨off, h, hundef.misaligned⟩)]
  · rename_i hwin
    exact .inr (.inr ⟨rfl, Nat.le_of_not_lt fun hlt => hwin (BitVec.lt_def.mpr hlt)⟩)

/-! ### Every step -/

theorem envMove_completes (s : State) : ∃ t, envMove s = .next t := exists_next_ite _ _ _

/-- Settles O47: the block's own move and those of the environment complete, and what stops a host access is the port
or the window. -/
theorem invariantExcludesModelStops : Obligations.InvariantExcludesModelStops := by
  intro s hinv
  cases hp : s.pending with
  | nil =>
    rw [step_alone hp]
    exact .inl (blockMove_completes hinv.block)
  | cons e rest =>
    rw [step_pending hp]
    cases e
    case host width word =>
      obtain hnext | ⟨off, h, hundef⟩ := hostMove_outcome width word { s with script := rest }
      exacts [.inl hnext, .inr (.inl ⟨off, width, word, rest, h, rfl, hundef.accessWellFormed⟩)]
    case hostAt width write addr value =>
      obtain hnext | ⟨off, h, hbad⟩ | ⟨h, hout⟩ := hostMoveAt_outcome width write addr value { s with script := rest }
      exacts [.inl hnext, .inr (.inr (.inl ⟨off, width, write, addr, value, rest, h, rfl, hbad⟩)),
        .inr (.inr (.inr ⟨width, write, addr, value, rest, h, rfl, hout⟩))]
    case sequencer => exact .inl (blockMove_completes (s := { s with script := rest }) hinv.block)
    all_goals exact .inl (envMove_completes _)

end Sys2Proof.Machine
end

section
/-! PROOFS. Commands: ignored, refused or accepted by opcode and BUSY; what acceptance sets; and `finish`
(43_framer_commands.md R200 to R207). -/

namespace Sys2Proof.Machine

/-! ### The write of CMD by its opcode -/

section

variable {s : State} {v : Word}

theorem execWrCmd_nop (h : v.toNat % 16 = 0) : execWrCmd v s = .next s := by
  simp only [execWrCmd, cmdOpcode_toNat, h, execNop]

theorem execWrCmd_writeFrame (h : v.toNat % 16 = 1) : execWrCmd v s = .next (s.mapBlock (Block.command .write)) := by
  simp only [execWrCmd, cmdOpcode_toNat, h, execWriteFrame]

theorem execWrCmd_readFrame (h : v.toNat % 16 = 2) : execWrCmd v s = .next (s.mapBlock (Block.command .read)) := by
  simp only [execWrCmd, cmdOpcode_toNat, h, execReadFrame]

theorem execWrCmd_sendBreak (h : v.toNat % 16 = 3) : execWrCmd v s = .next (s.mapBlock (Block.command .brk)) := by
  simp only [execWrCmd, cmdOpcode_toNat, h, execSendBreak]

theorem execWrCmd_rxFlush (h : v.toNat % 16 = 4) : execWrCmd v s = .next (s.mapBlock (Block.command .flush)) := by
  simp only [execWrCmd, cmdOpcode_toNat, h, execRxFlush]

/-- A reserved opcode is refused in IDLE too (R200). -/
theorem execWrCmd_reserved (h : 5 ≤ v.toNat % 16) : execWrCmd v s = .next (s.mapBlock Block.refuse) := by
  rw [← cmdOpcode_toNat] at h
  unfold execWrCmd
  dsimp only
  split
  case h_1 hop | h_2 hop | h_3 hop | h_4 hop | h_5 hop =>
    rw [hop] at h
    omega
  all_goals rfl

/-- A command in IDLE is accepted (R200). -/
theorem next_command_idle (h : s.block.busy = false) (op : Op) :
    (.next (s.mapBlock (Block.command op)) : StepOutcome) = .next { s with block := s.block.accept op } :=
  next_mapBlock (Block.command_idle h op)

end

/-- Settles O15: the opcode selects the arm, and BUSY whether a command is refused or accepted. -/
theorem cmdWriteDecidesByOpcode : Obligations.CmdWriteDecidesByOpcode := by
  intro s v refused
  refine ⟨execWrCmd_nop, execWrCmd_busy, fun hv _ => execWrCmd_reserved hv, fun h => ?_⟩
  exact ⟨fun hv => (execWrCmd_writeFrame hv).trans (next_command_idle h .write),
    fun hv => (execWrCmd_readFrame hv).trans (next_command_idle h .read),
    fun hv => (execWrCmd_sendBreak hv).trans (next_command_idle h .brk),
    fun hv => (execWrCmd_rxFlush hv).trans (next_command_idle h .flush)⟩

/-! ### Acceptance -/

section

variable {b : Block} {op : Op}

theorem Block.badLen_eq_decide (h : op.checksLen = true) : b.badLen op = decide (8 < b.len.toNat) := by
  rw [Block.badLen, h, Bool.true_and]
  rfl

theorem Block.badBaud_eq_decide (h : op.checksBaud = true) : b.badBaud op = decide (b.baud.toNat < 2) := by
  rw [Block.badBaud, h, Bool.true_and]
  rfl

/-- Operands that are legal wherever the operation checks them start it (R201). -/
theorem Block.accept_legal (hlen : op.checksLen = true → b.len.toNat ≤ 8)
    (hbaud : op.checksBaud = true → 2 ≤ b.baud.toNat) :
    b.accept op = { b with status := b.status.accepted, f := { b.f with op := op, state := op.firstState } } :=
  Block.accept_ok ((b.badLen_eq_false_iff op).mpr fun h => BitVec.le_def.mpr (hlen h))
    ((b.badBaud_eq_false_iff op).mpr fun h => BitVec.le_def.mpr (hbaud h))

/-- An illegal operand ends the command at once, with the flag of each check that failed (R201, R202). -/
theorem Block.accept_illegal {lenErr cfgErr : Bool} (hlen : b.badLen op = lenErr) (hbaud : b.badBaud op = cfgErr)
    (h : (lenErr || cfgErr) = true) :
    b.accept op = { b with
      status := ⟨true, false, false, false, false, lenErr, b.status.cmdErr, cfgErr⟩
      f := { b.f with op := op, state := .idle } } := by
  subst hlen hbaud
  exact Block.accept_bad h

end

/-- Settles O17: each operation checks its own operands, and an accepted one starts in its first state. -/
theorem acceptedCommandsStart : Obligations.AcceptedCommandsStart := by
  intro s ign h started
  have accepted (op : Op) (hlen : op.checksLen = true → s.block.len.toNat ≤ 8)
      (hbaud : op.checksBaud = true → 2 ≤ s.block.baud.toNat) :
      (.next (s.mapBlock (Block.command op)) : StepOutcome) = .next (started op op.firstState) :=
    next_mapBlock ((Block.command_idle h op).trans (Block.accept_legal hlen hbaud))
  refine ⟨fun hlen hbaud => ?_, fun hbaud => accepted .brk nofun fun _ => hbaud, accepted .flush nofun nofun, ?_⟩
  · exact ⟨accepted .write (fun _ => hlen) fun _ => hbaud, accepted .read (fun _ => hlen) fun _ => hbaud⟩
  · intro v hv hlen hbaud
    exact (execWrCmd_writeFrame hv).trans (accepted .write (fun _ => hlen) fun _ => hbaud)

/-- Settles O18: an illegal operand fails the command in the step that accepts it, each check setting its own flag. -/
theorem illegalOperandsFailAtAcceptance : Obligations.IllegalOperandsFailAtAcceptance := by
  intro s ign h failed
  have fails {op : Op} {lenErr cfgErr : Bool} (hlen : s.block.badLen op = lenErr)
      (hbaud : s.block.badBaud op = cfgErr) (hbad : (lenErr || cfgErr) = true) :
      (.next (s.mapBlock (Block.command op)) : StepOutcome) = .next (failed op lenErr cfgErr) :=
    next_mapBlock ((Block.command_idle h op).trans (Block.accept_illegal hlen hbaud hbad))
  refine ⟨fun hbad => ?_, fun hbad => ?_⟩
  · have hflag : (decide (8 < s.block.len.toNat) || decide (s.block.baud.toNat < 2)) = true := by simpa using hbad
    exact ⟨fails (op := .write) (Block.badLen_eq_decide rfl) (Block.badBaud_eq_decide rfl) hflag,
      fails (op := .read) (Block.badLen_eq_decide rfl) (Block.badBaud_eq_decide rfl) hflag⟩
  · exact fails (op := .brk) rfl ((Block.badBaud_eq_decide rfl).trans (decide_eq_true hbad)) rfl

/-- Settles O36. -/
theorem finishSetsOutcomeOnly : Obligations.FinishSetsOutcomeOnly :=
  ⟨fun _ _ => rfl, fun _ => seqStep_idle⟩

end Sys2Proof.Machine
end

section
/-! PROOFS. The header, the data, the checksum and what follows the flush (43_framer_commands.md R208, R209, R213 to
R215). -/

namespace Sys2Proof.Machine

section

variable {s : State} {b : Block}

/-- The reader started for the frame of the registers (R160). -/
theorem Block.startReader_eq (b : Block) :
    b.startReader = { b with r := { b.r with
      state := .waitForBreak, count := 0, fid := b.fid, pid := pid b.fid, len := b.len } } := by
  rw [Block.startReader, Reader.start_eq]

/-! ### TX_SYNC and TX_PID -/

theorem seqStep_txPid (hs : s.block.f.state = .txPid) : seqStep s = seqTxPid s := by
  rw [seqStep, hs]

theorem seqTxSync_waiting (h : s.uart.txReady = false) : seqTxSync s = .next s :=
  if_neg (Bool.eq_false_iff.mp h)

theorem seqTxSync_ready (h : s.uart.txReady = true) :
    seqTxSync s = .next ((s.txPush 0x55).mapBlock (Block.goto .txPid)) :=
  if_pos h

theorem seqTxPid_waiting (h : s.uart.txReady = false) : seqTxPid s = .next s :=
  if_neg (Bool.eq_false_iff.mp h)

theorem seqTxPid_ready (h : s.uart.txReady = true) :
    seqTxPid s = .next ((s.txPush s.block.framePid).mapBlock (Block.afterPid s.nowMs)) :=
  if_pos h

/-- READ_FRAME polls for the response from here on. -/
theorem Block.afterPid_read (now : Word) (hop : b.f.op = .read) :
    b.afterPid now = b.startReader.startTimer now .rxPoll :=
  if_pos hop

theorem Block.afterPid_noData (now : Word) (hop : b.f.op ≠ .read) (hlen : b.len = 0) :
    b.afterPid now = b.goto .txFlush := by
  rw [Block.afterPid, if_neg hop, if_pos hlen]

theorem Block.afterPid_firstData (now : Word) (hop : b.f.op ≠ .read) (hlen : b.len ≠ 0) :
    b.afterPid now = { b with f := { b.f with idx := 0, state := .txData } } := by
  rw [Block.afterPid, if_neg hop, if_neg hlen]

/-! ### TX_DATA and TX_CKS -/

theorem seqStep_txData (hs : s.block.f.state = .txData) : seqStep s = seqTxData s := by
  rw [seqStep, hs]

theorem seqStep_txCks (hs : s.block.f.state = .txCks) : seqStep s = seqTxCks s := by
  rw [seqStep, hs]

theorem seqTxData_waiting (h : s.uart.txReady = false) : seqTxData s = .next s :=
  if_neg (Bool.eq_false_iff.mp h)

theorem seqTxData_ready {d : Byte} (h : s.uart.txReady = true) (hidx : s.block.f.idx < s.block.len)
    (hd : s.block.data.get? s.block.f.idx.toNat = some d) :
    seqTxData s = .next ((s.txPush d).mapBlock Block.afterData) := by
  rw [seqTxData, if_pos h, if_pos hidx, hd]

theorem seqTxCks_waiting (h : s.uart.txReady = false) : seqTxCks s = .next s :=
  if_neg (Bool.eq_false_iff.mp h)

theorem seqTxCks_ready (h : s.uart.txReady = true) :
    seqTxCks s = .next ((s.txPush s.block.frameChecksum).mapBlock (Block.goto .txFlush)) :=
  if_pos h

/-- The last data byte is known by its index as a number: below LEN the index does not wrap. -/
theorem Block.afterData_toNat (hlen : b.len.toNat ≤ 8) (hidx : b.f.idx.toNat < b.len.toNat) :
    b.afterData = { b with f := { b.f with
      idx := b.f.idx + 1
      state := if b.f.idx.toNat + 1 = b.len.toNat then .txCks else .txData } } := by
  have hlast : b.f.idx + 1 = b.len ↔ b.f.idx.toNat + 1 = b.len.toNat := by
    rw [← BitVec.toNat_inj, idx_succ_toNat hlen hidx]
  simp only [Block.afterData, hlast]

/-- With a legal LEN the register CKS reads the checksum that is sent (R34, R214). -/
theorem Block.cksWord_eq_frameChecksum (hlen : b.len.toNat ≤ 8) : b.cksWord = b.frameChecksum.setWidth 32 := by
  rw [Block.cksWord, Nat.min_eq_left hlen]
  rfl

/-! ### TX_FLUSH -/

theorem seqStep_txFlush (hs : s.block.f.state = .txFlush) : seqStep s = seqTxFlush s := by
  rw [seqStep, hs]

theorem seqTxFlush_waiting (h : s.txEmpty = false) : seqTxFlush s = .next s :=
  if_neg (Bool.eq_false_iff.mp h)

theorem seqTxFlush_empty (h : s.txEmpty = true) : seqTxFlush s = .next (s.mapBlock (Block.afterFlush s.nowMs)) :=
  if_pos h

theorem Block.afterFlush_verify (now : Word) (hv : b.ctrl.verify = true) :
    b.afterFlush now = b.startReader.startTimer now .rxPoll :=
  if_pos hv

theorem Block.afterFlush_drain (now : Word) (hv : b.ctrl.verify = false) (hd : b.ctrl.drain = true) :
    b.afterFlush now = { b with f := { b.f with k := b.echoCount, t0 := now, state := .drain } } := by
  rw [Block.afterFlush, if_neg (Bool.eq_false_iff.mp hv), if_pos hd]
  rfl

theorem Block.afterFlush_finish (now : Word) (hv : b.ctrl.verify = false) (hd : b.ctrl.drain = false) :
    b.afterFlush now = b.finish true := by
  rw [Block.afterFlush, if_neg (Bool.eq_false_iff.mp hv), if_neg (Bool.eq_false_iff.mp hd)]

theorem Block.echoCount_eq_ofNat (b : Block) :
    b.echoCount = BitVec.ofNat 4 (if b.len.toNat = 0 then 3 else b.len.toNat + 4) := by
  have hzero : b.len = 0 ↔ b.len.toNat = 0 := BitVec.toNat_inj.symm
  simp only [Block.echoCount, hzero]
  split
  · rfl
  · rw [BitVec.ofNat_add, BitVec.ofNat_toNat, BitVec.setWidth_eq]
    rfl

end

/-! ### The statements -/

/-- Settles O24: each state holds or pushes as `tx_ready` says, and TX_PID goes on by the operation and LEN. -/
theorem headerSteps : Obligations.HeaderSteps := by
  intro s push
  refine ⟨fun hs => ?_, fun hs => ?_⟩
  · rw [seqStep_txSync hs]
    exact ⟨seqTxSync_waiting, seqTxSync_ready⟩
  · rw [seqStep_txPid hs]
    refine ⟨seqTxPid_waiting, fun hready => ?_⟩
    rw [seqTxPid_ready hready]
    refine ⟨fun hop => next_mapBlock ?_, fun hop hlen => next_mapBlock (Block.afterPid_noData _ hop hlen),
      fun hop hlen => next_mapBlock (Block.afterPid_firstData _ hop hlen)⟩
    rw [Block.afterPid_read _ (by exact hop), Block.startReader_eq]
    rfl

/-- Settles O25: below LEN there is a byte to push, and the index tells the last one. -/
theorem dataAndChecksumSteps : Obligations.DataAndChecksumSteps := by
  intro s hlen push
  refine ⟨fun hs hidx => ?_, fun hs _ => ?_⟩
  · rw [seqStep_txData hs]
    refine ⟨seqTxData_waiting, fun hready => ?_⟩
    have hlt : s.block.f.idx.toNat < s.block.data.toList.length := hidx.trans_le hlen
    have hd := List.getElem?_eq_getElem hlt
    refine ⟨_, hd, ?_⟩
    rw [seqTxData_ready hready (BitVec.lt_def.mpr hidx) hd]
    exact next_mapBlock (Block.afterData_toNat (b := s.block) hlen hidx)
  · rw [seqStep_txCks hs]
    exact ⟨seqTxCks_waiting, seqTxCks_ready, Block.cksWord_eq_frameChecksum hlen⟩

/-- Settles O26: VERIFY is tested first, DRAIN next. -/
theorem flushThenVerifyDrainOrFinish : Obligations.FlushThenVerifyDrainOrFinish := by
  intro s hs _
  rw [seqStep_txFlush hs]
  refine ⟨seqTxFlush_waiting, fun hempty => ?_⟩
  rw [seqTxFlush_empty hempty]
  refine ⟨fun hv => next_mapBlock ?_, fun hv hd => next_mapBlock ?_,
    fun hv hd => next_mapBlock (Block.afterFlush_finish _ hv hd)⟩
  · rw [Block.afterFlush_verify _ hv, Block.startReader_eq]
    rfl
  · rw [Block.afterFlush_drain _ hv hd, Block.echoCount_eq_ofNat]

end Sys2Proof.Machine
end

section
/-! PROOFS. Polling: the tests in their order, and the outcomes of completion and timeout (43_framer_commands.md R210
to R212). -/

namespace Sys2Proof.Machine

section

variable {s : State} {b : Block}

/-! ### The tests of a poll -/

theorem seqRxPoll_timedOut (hc : s.block.r.complete = false) (hd : s.deadline Config.tFrameMs = true) :
    seqRxPoll s = .next (s.mapBlock (Block.timeOut s.nowMs)) := by
  rw [seqRxPoll, if_neg (Bool.eq_false_iff.mp hc), if_pos hd]

theorem seqRxPoll_waiting (hc : s.block.r.complete = false) (hd : s.deadline Config.tFrameMs = false)
    (hf : s.uart.rxFifo = []) : seqRxPoll s = .next s := by
  rw [seqRxPoll, if_neg (Bool.eq_false_iff.mp hc), if_neg (Bool.eq_false_iff.mp hd), State.rxPop_nil hf]

theorem seqRxPoll_received {byte : Byte} {rest : List Byte} {st : ReaderStep} (hc : s.block.r.complete = false)
    (hd : s.deadline Config.tFrameMs = false) (hf : s.uart.rxFifo = byte :: rest)
    (hp : s.block.r.processByte byte = some st) :
    seqRxPoll s = .next { s with block := s.block.received st, uart := { s.uart with rxFifo := rest } } := by
  rw [seqRxPoll, if_neg (Bool.eq_false_iff.mp hc), if_neg (Bool.eq_false_iff.mp hd), State.rxPop_cons hf]
  simp only [hp]
  rfl

/-! ### Completion and timeout -/

theorem Bytes8.copyFirst_toList (m : Nat) (src dst : Bytes8) :
    (Bytes8.copyFirst m src dst).toList = src.toList.take m ++ dst.toList.drop m := by
  rcases m with _ | _ | _ | _ | _ | _ | _ | _ | m <;> simp [Bytes8.toList, Bytes8.copyFirst]

theorem Block.complete_read (hop : b.f.op = .read) :
    b.complete = ({ b with data := Bytes8.copyFirst b.r.len.toNat b.r.buf b.data } : Block).finish true :=
  if_pos hop

theorem Block.complete_match (hop : b.f.op ≠ .read) (h : b.echoMatches = true) : b.complete = b.finish true := by
  rw [Block.complete, if_neg hop, if_pos h]

theorem Block.complete_mismatch (hop : b.f.op ≠ .read) (h : ¬ b.echoMatches = true) :
    b.complete = ({ b with status := { b.status with rbErr := true } } : Block).finish false := by
  rw [Block.complete, if_neg hop, if_neg h]

/-- The verify compares byte by byte (R211). -/
theorem Block.echoMatches_iff (b : Block) :
    b.echoMatches = true ↔ ∀ i < b.r.len.toNat, b.r.buf.toList[i]? = b.data.toList[i]? := by
  rw [Block.echoMatches, beq_iff_eq, Bytes8.first, Bytes8.first, List.ext_getElem?_iff]
  simp only [List.getElem?_take]
  refine forall_congr' fun i => ?_
  split_ifs with hi <;> simp [hi]

theorem Block.timeOut_read (now : Word) (hop : b.f.op = .read) :
    b.timeOut now = ({ b with status := { b.status with timeout := true } } : Block).startTimer now .failDelay :=
  if_pos hop

theorem Block.timeOut_verify (now : Word) (hop : b.f.op ≠ .read) :
    b.timeOut now =
      ({ b with status := { b.status with timeout := true, rbErr := true } } : Block).finish false :=
  if_neg hop

end

/-! ### The statements -/

/-- Settles O27: each clause is the first test that holds. -/
theorem rxPollTestsInOrder : Obligations.RxPollTestsInOrder := by
  intro s hs
  rw [seqStep_rxPoll hs]
  refine ⟨seqRxPoll_complete, fun hc ht => ?_, fun hc ht => ?_⟩
  · exact seqRxPoll_timedOut hc ((s.deadline_eq_true_iff Config.tFrameMs).mpr ht)
  · have hd : s.deadline Config.tFrameMs = false := (s.deadline_eq_false_iff Config.tFrameMs).mpr ht
    exact ⟨seqRxPoll_waiting hc hd, fun _ _ _ => seqRxPoll_received hc hd⟩

/-- Settles O28: a read copies the buffer, a verify compares it, and each takes its own way out of a timeout. -/
theorem pollOutcomes : Obligations.PollOutcomes := by
  intro b now _
  refine ⟨fun hop => ⟨_, Bytes8.copyFirst_toList _ _ _, Block.complete_read hop, Block.timeOut_read now hop⟩,
    fun hop => ?_⟩
  intro same
  refine ⟨fun h => ?_, fun h => ?_, Block.timeOut_verify now hop⟩
  · exact Block.complete_match hop (b.echoMatches_iff.mpr h)
  · exact Block.complete_mismatch hop (mt b.echoMatches_iff.mp h)

end Sys2Proof.Machine
end

section
/-! PROOFS. How a transaction ends: only by `finish` or by reset, and RX_FLUSH when the FIFO is empty
(43_framer_commands.md R219, R220). -/

namespace Sys2Proof.Machine

/-! ### A transaction in flight -/

/-- The transaction has reported its outcome (R202). -/
def Block.Finished (b : Block) : Prop := b.f.state = .idle ∧ b.status.done = true

/-- The transaction of `b` goes on in `b'`: its operation stays, and the sequencer stays where it is or is in a state
that no command starts in. -/
def Block.GoesOn (b b' : Block) : Prop :=
  b'.f.op = b.f.op ∧
    (b'.f.state = b.f.state ∨
      (b'.f.state ≠ .idle ∧ b'.f.state ≠ .brkFlush1 ∧ b'.f.state ≠ .rxFlushing))

section

variable {b b' : Block}

theorem Block.GoesOn.of_f_eq (h : b'.f = b.f) : b.GoesOn b' := by
  rw [Block.GoesOn, h]
  exact ⟨rfl, .inl rfl⟩

theorem Block.GoesOn.busy (h : b.GoesOn b') (hb : b.busy = true) : b'.busy = true := by
  rw [Block.busy_eq_true_iff] at hb ⊢
  obtain ⟨-, hs | ⟨hs, -, -⟩⟩ := h
  exacts [hs ▸ hb, hs]

theorem Block.goesOn_afterPid (now : Word) (b : Block) : b.GoesOn (b.afterPid now) := by
  unfold Block.afterPid
  split_ifs
  all_goals exact ⟨rfl, .inr ⟨nofun, nofun, nofun⟩⟩

theorem Block.goesOn_afterData (b : Block) : b.GoesOn b.afterData := by
  by_cases hlast : b.f.idx + 1 = b.len
  · rw [Block.afterData_last hlast]
    exact ⟨rfl, .inr ⟨nofun, nofun, nofun⟩⟩
  · rw [Block.afterData_next hlast]
    exact ⟨rfl, .inr ⟨nofun, nofun, nofun⟩⟩

theorem Block.afterFlush_finished_or_goesOn (now : Word) (b : Block) :
    (b.afterFlush now).Finished ∨ b.GoesOn (b.afterFlush now) := by
  unfold Block.afterFlush
  split_ifs
  exacts [.inr ⟨rfl, .inr ⟨nofun, nofun, nofun⟩⟩, .inr ⟨rfl, .inr ⟨nofun, nofun, nofun⟩⟩, .inl ⟨rfl, rfl⟩]

theorem Block.complete_finished (b : Block) : b.complete.Finished := by
  unfold Block.complete
  split_ifs
  all_goals exact ⟨rfl, rfl⟩

theorem Block.timeOut_finished_or_goesOn (now : Word) (b : Block) :
    (b.timeOut now).Finished ∨ b.GoesOn (b.timeOut now) := by
  by_cases hop : b.f.op = .read
  · rw [Block.timeOut_read now hop]
    exact .inr ⟨rfl, .inr ⟨nofun, nofun, nofun⟩⟩
  · rw [Block.timeOut_verify now hop]
    exact .inl ⟨rfl, rfl⟩

/-- A rule of the sequencer finishes the transaction or carries it on. -/
theorem Block.Advances.finished_or_goesOn {now : Word} (h : b.Advances now b') : b'.Finished ∨ b.GoesOn b' := by
  cases h with
  | held | received | drained => exact .inr ⟨rfl, .inl rfl⟩
  | halved | breakPushed | quiet | restored | syncPushed | cksPushed => exact .inr ⟨rfl, .inr ⟨nofun, nofun, nofun⟩⟩
  | pidPushed => exact .inr (b.goesOn_afterPid now)
  | dataPushed => exact .inr b.goesOn_afterData
  | flushed => exact b.afterFlush_finished_or_goesOn now
  | completed => exact .inl b.complete_finished
  | timedOut => exact b.timeOut_finished_or_goesOn now
  | succeeded | failed => exact .inl ⟨rfl, rfl⟩

end

/-- While BUSY no instruction reaches the sequencer (R220). -/
theorem exec_f_of_busy {s t : State} {i : Instr} (hb : s.block.busy = true) (h : exec i s = .next t) :
    t.block.f = s.block.f := by
  obtain ⟨st, irq, hblock⟩ := (exec_written h).of_busy hb
  rw [hblock]

/-- While BUSY a step resets the block, finishes the transaction or carries it on. -/
theorem step_busy_cases {s t : State} (hb : s.block.busy = true) (h : step s = .next t) :
    (t.rst = true ∧ t.block = s.block.reset) ∨ (t.rst = false ∧ t.block.Finished) ∨ s.block.GoesOn t.block := by
  obtain ⟨hr, v, rfl⟩ | ⟨-, i, -, hx⟩ | ⟨hr, hx⟩ | rfl := step_cases h
  · exact .inl ⟨hr, by simp⟩
  · exact .inr (.inr (.of_f_eq (exec_f_of_busy (s := s.takeMove) hb hx)))
  · obtain ⟨-, hrst, -⟩ := seqStep_environment hx
    exact .inr ((seqStep_advances hx).finished_or_goesOn.imp_left (⟨hrst.trans hr, ·⟩))
  · exact .inr (.inr (.of_f_eq (by simp)))

/-- Settles O37: what a step does to a busy block settles both what ends a transaction and what goes on in it. -/
theorem transactionEndsByFinishOrReset : Obligations.TransactionEndsByFinishOrReset := by
  refine ⟨fun s t _ hb h hidle => ?_, fun s t i => exec_f_of_busy, fun s t hb h hbusy => ?_⟩
  · obtain hreset | hfinished | hgoes := step_busy_cases hb h
    · exact .inl hreset
    · exact .inr hfinished
    · exact absurd (hgoes.busy hb) (by simp [hidle])
  · rw [Block.busy_eq_true_iff] at hbusy
    obtain ⟨-, hreset⟩ | ⟨-, hidle, -⟩ | ⟨hop, hsame | ⟨-, hbrk, hflush⟩⟩ := step_busy_cases hb h
    · exact absurd (congrArg (·.f.state) hreset) hbusy
    · exact absurd hidle hbusy
    · exact ⟨hop, hsame.symm.trans, hsame.symm.trans⟩
    · exact ⟨hop, (absurd · hbrk), (absurd · hflush)⟩

/-! ### RX_FLUSH -/

/-- The first of the sequencer's moves to come. -/
theorem runSteps_sequencer {s t : State} {k : Nat} {rest : List Event} (hr : s.rst = false)
    (hscript : s.script = List.replicate (k + 1) .sequencer ++ rest)
    (hx : seqStep { s with script := List.replicate k .sequencer ++ rest } = .next t) :
    runSteps (k + 1) s = runSteps k t :=
  runSteps_of_step ((step_sequencer hr (State.pending_of_script hscript)).trans hx) k

/-- As many steps as there are bytes discard as many, oldest first (R219). -/
theorem runSteps_flush (k : Nat) {s : State} {rest : List Event} (hr : s.rst = false)
    (hs : s.block.f.state = .rxFlushing) (hk : k ≤ s.uart.rxFifo.length)
    (hscript : s.script = List.replicate k .sequencer ++ rest) :
    runSteps k s = .next { s with script := rest, uart := { s.uart with rxFifo := s.uart.rxFifo.drop k } } := by
  induction k generalizing s with
  | zero =>
    obtain rfl : s.script = rest := hscript
    rfl
  | succ k ih =>
    obtain ⟨byte, fifo, hf⟩ := List.exists_cons_of_length_pos (Nat.zero_lt_of_lt hk)
    rw [hf, List.length_cons, Nat.add_le_add_iff_right] at hk
    have hx := (seqStep_rxFlushing (s := { s with script := List.replicate k .sequencer ++ rest }) hs).trans
      (seqRxFlushing_discards hf)
    rw [runSteps_sequencer hr hscript hx, hf, List.drop_succ_cons]
    exact ih hr hs hk rfl

/-- Settles O44: after `k` steps `k` bytes are gone, and the step that finds none left finishes. -/
theorem flushEndsWhenTheFifoIsEmpty : Obligations.FlushEndsWhenTheFifoIsEmpty := by
  intro s hr hs n s0
  have discarded (k : Nat) (m : Nat) (hk : k ≤ n) (hm : k + m = n + 1) :
      runSteps k s0 = .next { s with
        script := List.replicate m .sequencer, uart := { s.uart with rxFifo := s.uart.rxFifo.drop k } } :=
    runSteps_flush k hr hs hk (List.replicate_append_replicate.trans (by rw [hm])).symm
  constructor
  · have hx := (seqStep_rxFlushing (s := { s with
        script := [], uart := { s.uart with rxFifo := s.uart.rxFifo.drop n } }) hs).trans
      (seqRxFlushing_done (List.drop_length ..))
    exact ⟨_, (runSteps_add (discarded n 1 le_rfl rfl) 1).trans (runSteps_sequencer (rest := []) hr rfl hx),
      rfl, rfl, rfl, List.drop_length .., rfl, rfl, rfl⟩
  · intro k hk
    exact ⟨_, discarded k (n + 1 - k) hk (by omega), (Block.busy_eq_true_iff _).mpr (by simp [hs])⟩

end Sys2Proof.Machine
end

section
/-! PROOFS. The break and the header of a command, with their echo and at the time they go out, on a UART that keeps up
(20_memory.md R72, 41_break_generator.md R140 to R142, 43_framer_commands.md R205, R206). -/

namespace Sys2Proof.Machine

/-! ### Rounds with their echo, at the time they are made -/

/-- The state `s` after rounds that leave the block `b`, the characters `cs` on the line and the moves `rest` to come:
with ECHO the bytes have started on the bus (R72). -/
def State.sent (b : Block) (cs : List TxChar) (rest : List Event) (s : State) : State :=
  { s with
    block := b
    uart := { s.uart with
      onBus := s.uart.onBus ++ if s.params.echo = true then cs.map TxChar.byte else []
      line := s.uart.line ++ cs }
    script := rest }

section

variable {s : State} {b b' : Block} {cs cs' : List TxChar} {rest rest' : List Event}

theorem State.Resting.sent (h : s.Resting) : (s.sent b cs rest).Resting := ⟨h.running, h.ready, h.queue, h.active⟩

theorem State.sent_sent : (s.sent b cs rest).sent b' cs' rest' = s.sent b' (cs ++ cs') rest' := by
  cases he : s.params.echo <;> simp [State.sent, he]

/-- The one character that waits starts, with its echo, and leaves. -/
theorem startOne_sendOne_echo {u : Uart} (ha : u.txActive = none) (hq : u.txQueue.length ≤ 1) (echo : Bool) :
    (u.startOne echo).sendOne = { u with
      txQueue := []
      onBus := u.onBus ++ if echo = true then u.txQueue.map TxChar.byte else []
      line := u.line ++ u.txQueue } := by
  obtain ⟨ready, queue, active, bus, fifo, line⟩ := u
  obtain rfl : active = none := ha
  match queue, hq with
  | [], _ => simp [Uart.startOne, Uart.sendOne]
  | [c], _ => cases echo <;> simp [Uart.startOne, Uart.sendOne, Uart.busStart]

end

/-- From the block `b` at time `now`, `k` rounds put the characters `cs` on the line, with their echo, and leave the
block `b'` (`Block.Sends`, with the time they are made at and the whole state they leave). -/
def Block.SendsAt (now : Word) (k : Nat) (b : Block) (cs : List TxChar) (b' : Block) : Prop :=
  ∀ (s : State) (n : Nat) (rest : List Event), s.Resting → s.nowMs = now → s.block = b →
    s.script = sendRounds (k + n) ++ rest →
    runSteps (3 * k) s = .next (s.sent b' cs (sendRounds n ++ rest))

section

variable {now : Word} {b b' b'' : Block} {cs cs' : List TxChar}

theorem Block.SendsAt.trans {k k' : Nat} (h : b.SendsAt now k cs b') (h' : b'.SendsAt now k' cs' b'') :
    b.SendsAt now (k + k') (cs ++ cs') b'' := by
  intro s n rest hs hn hb hscript
  rw [Nat.mul_add, runSteps_add (h s (k' + n) rest hs hn hb (by rw [hscript, Nat.add_assoc])),
    h' _ n rest hs.sent hn rfl rfl, State.sent_sent]

/-- One round in which the sequencer leaves the block `b'` and in the queue the characters `cs`, one at most. -/
theorem Block.SendsAt.of_seqStep (hlen : cs.length ≤ 1)
    (h : ∀ s : State, s.Resting → s.nowMs = now → s.block = b →
      seqStep s = .next { s with block := b', uart := { s.uart with txQueue := cs } }) :
    b.SendsAt now 1 cs b' := by
  intro s n rest hs hn hb hscript
  rw [Nat.add_comm, sendRounds_succ] at hscript
  have hseq := (step_sequencer hs.running (State.pending_of_script hscript)).trans
    (h { s with script := .txStart :: .txDone :: (sendRounds n ++ rest) }
      ⟨hs.running, hs.ready, hs.queue, hs.active⟩ hn hb)
  have hsent := startOne_sendOne_echo (u := { s.uart with txQueue := cs }) hs.active hlen s.params.echo
  rw [runSteps_of_step hseq, runSteps_of_step (step_txStart (by exact hs.running) rfl),
    runSteps_of_step (step_txDone (by exact hs.running) rfl), runSteps, hsent, ← hs.queue]
  rfl

/-- A round in which the sequencer pushes a byte. -/
theorem Block.SendsAt.of_push {byte : Byte}
    (h : ∀ s : State, s.Resting → s.nowMs = now → s.block = b →
      seqStep s = .next { s.txPush byte with block := b' }) :
    b.SendsAt now 1 [sentChar b.baudOut byte] b' := by
  refine .of_seqStep le_rfl fun s hs hn hb => ?_
  rw [h s hs hn hb]
  simp [hs.queue, hb, sentChar]

/-- A round in which it pushes none. -/
theorem Block.SendsAt.of_silent
    (h : ∀ s : State, s.Resting → s.nowMs = now → s.block = b → seqStep s = .next { s with block := b' }) :
    b.SendsAt now 1 [] b' := by
  refine .of_seqStep (Nat.zero_le 1) fun s hs hn hb => ?_
  rw [h s hs hn hb, ← hs.queue]

/-! ### The break, its quiet time and the header -/

theorem Block.sendsAt_brkFlush1 (h : b.f.state = .brkFlush1) :
    b.SendsAt now 1 [] ((b.setBaud b.halfBaud).goto .brkSend) :=
  .of_silent <| by
    rintro s hs - rfl
    exact (seqStep_brkFlush1 h).trans (seqBrkFlush1_empty hs.txEmpty)

theorem Block.sendsAt_brkSend (h : b.f.state = .brkSend) :
    b.SendsAt now 1 [sentChar b.baudOut 0x00] (b.goto .brkFlush2) :=
  .of_push <| by
    rintro s hs - rfl
    exact (seqStep_brkSend h).trans (seqBrkSend_ready hs.ready)

theorem Block.sendsAt_brkFlush2_breakSent (h : b.f.state = .brkFlush2) (hop : b.f.op = .brk) :
    b.SendsAt now 1 [] ((b.setBaud b.baud).startTimer now .wakeDelay) :=
  .of_silent <| by
    rintro s hs rfl rfl
    exact (seqStep_brkFlush2 h).trans (seqBrkFlush2_breakSent hs.txEmpty hop)

theorem Block.sendsAt_brkFlush2_syncDue (h : b.f.state = .brkFlush2) (hop : b.f.op ≠ .brk) :
    b.SendsAt now 1 [] ((b.setBaud b.baud).goto .txSync) :=
  .of_silent <| by
    rintro s hs - rfl
    exact (seqStep_brkFlush2 h).trans (seqBrkFlush2_syncDue hs.txEmpty hop)

theorem Block.sendsAt_txSync (h : b.f.state = .txSync) :
    b.SendsAt now 1 [sentChar b.baudOut 0x55] (b.goto .txPid) :=
  .of_push <| by
    rintro s hs - rfl
    exact (seqStep_txSync h).trans (seqTxSync_ready hs.ready)

theorem Block.sendsAt_txPid_read (h : b.f.state = .txPid) (hop : b.f.op = .read) :
    b.SendsAt now 1 [sentChar b.baudOut b.framePid] (b.startReader.startTimer now .rxPoll) :=
  .of_push <| by
    rintro s hs rfl rfl
    exact (seqStep_txPid h).trans ((seqTxPid_ready hs.ready).trans (next_mapBlock (Block.afterPid_read _ hop)))

/-- Two rounds put the break on the line, at the half rate (R140, R141). -/
theorem Block.sendsAt_break (h : b.f.state = .brkFlush1) :
    b.SendsAt now 2 [sentChar (b.baud >>> 1) 0x00] ((b.setBaud b.halfBaud).goto .brkFlush2) :=
  (Block.sendsAt_brkFlush1 h).trans (Block.sendsAt_brkSend rfl)

/-- A third round ends SEND_BREAK's part on the line, and its quiet time begins (R142, R147). -/
theorem Block.sendsAt_sendBreak (h : b.f.state = .brkFlush1) (hop : b.f.op = .brk) :
    b.SendsAt now 3 [sentChar (b.baud >>> 1) 0x00] ((b.setBaud b.baud).startTimer now .wakeDelay) :=
  (Block.sendsAt_break h).trans (Block.sendsAt_brkFlush2_breakSent rfl hop)

/-- Five rounds put the header of READ_FRAME on the line, and the reader is started then (R208, R209). -/
theorem Block.sendsAt_readHeader (h : b.f.state = .brkFlush1) (hop : b.f.op = .read) :
    b.SendsAt now 5 (headerChars b.fid b.baud) ((b.setBaud b.baud).startReader.startTimer now .rxPoll) := by
  have hbrk : b.f.op ≠ .brk := by simp [hop]
  have hrestored : b.SendsAt now 3 [sentChar (b.baud >>> 1) 0x00] ((b.setBaud b.baud).goto .txSync) :=
    (Block.sendsAt_break h).trans (Block.sendsAt_brkFlush2_syncDue rfl hbrk)
  have hsync : b.SendsAt now 4 [sentChar (b.baud >>> 1) 0x00, sentChar b.baud 0x55]
      ((b.setBaud b.baud).goto .txPid) :=
    hrestored.trans (Block.sendsAt_txSync rfl)
  exact hsync.trans (Block.sendsAt_txPid_read rfl hop)

end

/-! ### The acceptance -/

/-- The block after it has accepted `op` (R201). -/
def Block.startedWith (op : Op) (b : Block) : Block :=
  { b with status := b.status.accepted, f := { b.f with op := op, state := op.firstState } }

theorem Block.Accepts.command {op : Op} {b : Block} (h : b.Accepts op) : b.command op = b.startedWith op := by
  obtain ⟨hidle, hlen, hbaud⟩ := h
  rw [Block.command_idle hidle, Block.accept_ok hlen hbaud]
  rfl

theorem Block.Accepts.toNat_len_le {op : Op} {b : Block} (h : b.Accepts op) (hop : op.checksLen = true) :
    b.len.toNat ≤ 8 :=
  have ⟨_, hlen, _⟩ := h
  BitVec.le_def.mp ((b.badLen_eq_false_iff op).mp hlen hop)

theorem step_readFrame {s : State} {rest : List Event} (hr : s.rst = false)
    (hs : s.script = .host .w32 (.bus 0x44 0x2) :: rest) (h : s.block.Accepts .read) :
    step s = .next { s with script := rest, block := s.block.startedWith .read } := by
  rw [step_wrCmd hr hs, ← h.command]
  rfl

theorem step_sendBreak {s : State} {rest : List Event} (hr : s.rst = false)
    (hs : s.script = .host .w32 (.bus 0x44 0x3) :: rest) (h : s.block.Accepts .brk) :
    step s = .next { s with script := rest, block := s.block.startedWith .brk } := by
  rw [step_wrCmd hr hs, ← h.command]
  rfl

/-- The write of CMD and five rounds put the header of READ_FRAME on the line, and the reader is started. -/
theorem runSteps_readFrame {s : State} {rest : List Event} (hs : s.Resting) (h : s.block.Accepts .read)
    (hscript : s.script = .host .w32 (.bus 0x44 0x2) :: (sendRounds 5 ++ rest)) :
    runSteps 16 s = .next (s.sent
      (((s.block.startedWith .read).setBaud s.block.baud).startReader.startTimer s.nowMs .rxPoll)
      (headerChars s.block.fid s.block.baud) rest) := by
  rw [runSteps_of_step (step_readFrame hs.running hscript h)]
  exact Block.sendsAt_readHeader rfl rfl _ 0 rest ⟨hs.running, hs.ready, hs.queue, hs.active⟩ rfl rfl rfl

/-- The write of CMD and three rounds put the break of SEND_BREAK on the line, and its quiet time begins. -/
theorem runSteps_sendBreak {s : State} {rest : List Event} (hs : s.Resting) (h : s.block.Accepts .brk)
    (hscript : s.script = .host .w32 (.bus 0x44 0x3) :: (sendRounds 3 ++ rest)) :
    runSteps 10 s = .next (s.sent
      (((s.block.startedWith .brk).setBaud s.block.baud).startTimer s.nowMs .wakeDelay)
      [sentChar (s.block.baud >>> 1) 0x00] rest) := by
  rw [runSteps_of_step (step_sendBreak hs.running hscript h)]
  exact Block.sendsAt_sendBreak rfl rfl _ 0 rest ⟨hs.running, hs.ready, hs.queue, hs.active⟩ rfl rfl rfl

end Sys2Proof.Machine
end

section
/-! PROOFS. SEND_BREAK through its quiet time (41_break_generator.md R147, 43_framer_commands.md R206). -/

namespace Sys2Proof.Machine

/-- The clock adds `d` to the start of the quiet time, and the sequencer's next step ends it just when T_WAKE_MS is
reached (R147). -/
theorem runSteps_quietTime {s u : State} {d : Word} {n : Nat} (hrun : runSteps n s = .next u) (hr : u.rst = false)
    (hs : u.block.f.state = .wakeDelay) (ht : u.block.f.t0 = u.nowMs) (hscript : u.script = [.clock d, .sequencer]) :
    ∃ t, runSteps (n + 2) s = .next t ∧ t.uart = u.uart ∧
      (u.params.tWakeMs.toNat ≤ d.toNat → t.block = u.block.finish true) ∧
      (d.toNat < u.params.tWakeMs.toNat → t.block = u.block) := by
  have hclock := step_clock hr (State.pending_of_script hscript)
  rw [← ht] at hclock
  have hseq := step_sequencer (s := { u with
    script := [.sequencer], nowMs := BitVec.ofNat 32 (u.block.f.t0.toNat + d.toNat) }) hr rfl
  have hd := State.deadline_eq_true_iff { u with
    script := [], nowMs := BitVec.ofNat 32 (u.block.f.t0.toNat + d.toNat) } u.params.tWakeMs
  rw [elapsed_toNat_of_eq_add d.isLt rfl] at hd
  rw [runSteps_add hrun, runSteps_of_step hclock]
  by_cases hle : u.params.tWakeMs.toNat ≤ d.toNat
  · rw [runSteps_of_step (hseq.trans (seqStep_wakeDelay_expired hs (hd.mpr hle)))]
    exact ⟨_, rfl, rfl, fun _ => rfl, fun hlt => absurd hle (Nat.not_le.mpr hlt)⟩
  · rw [runSteps_of_step (hseq.trans (seqStep_wakeDelay_waiting hs (mt hd.mp hle)))]
    exact ⟨_, rfl, rfl, fun hle' => absurd hle' hle, fun _ => rfl⟩

/-- Settles O56: three rounds send the break and start the quiet time at `now_ms`, and the clock then adds `d`. -/
theorem sendBreakHoldsTheQuietTime : Obligations.SendBreakHoldsTheQuietTime := by
  intro s d hr haccepts hready hq ha _ script
  have hrun := runSteps_sendBreak (s := { s with script := script }) ⟨hr, hready, hq, ha⟩ haccepts rfl
  obtain ⟨t, hquiet, huart, hover, hwaits⟩ := runSteps_quietTime hrun hr rfl rfl rfl
  refine ⟨t, hquiet, by rw [huart]; rfl, ?_, fun h => ?_, fun h => ?_⟩
  · obtain h | h := Nat.lt_or_ge d.toNat s.params.tWakeMs.toNat
    · rw [hwaits h]
      rfl
    · rw [hover h]
      rfl
  · rw [hover h]
    exact ⟨rfl, rfl, rfl⟩
  · rw [hwaits h]
    exact ⟨rfl, rfl⟩

end Sys2Proof.Machine
end

section
/-! PROOFS. READ_FRAME through the response of the slave (20_memory.md R72, 42_frame_reader.md R177,
43_framer_commands.md R205, R211). -/

namespace Sys2Proof.Machine

/-! ### The response arrives -/

/-- The bytes on the bus arrive in their order while the FIFO has room. -/
theorem runSteps_echoesArrive (bus : List Byte) {s : State} {rest : List Event} (hr : s.rst = false)
    (hbus : s.uart.onBus = bus) (hscript : s.script = List.replicate bus.length arriveIntact ++ rest)
    (hroom : s.uart.rxFifo.length + bus.length ≤ s.params.rxDepth) :
    runSteps bus.length s = .next { s with
      script := rest, uart := { s.uart with onBus := [], rxFifo := s.uart.rxFifo ++ bus } } := by
  induction bus generalizing s with
  | nil =>
    obtain rfl : s.script = rest := hscript
    rw [List.length_nil, runSteps, List.append_nil, ← hbus]
  | cons b bus ih =>
    rw [List.length_cons] at hroom
    rw [List.length_cons, runSteps_of_step (step_rxArrive_room (c := b) hr hscript hbus rfl (by omega)),
      ih (by exact hr) rfl rfl (by simp; omega)]
    simp

/-- Bytes that start and arrive one after the other are held behind those before, while the FIFO has room. -/
theorem runSteps_arrivals (bs : List Byte) {s : State} {rest : List Event} (hr : s.rst = false)
    (hbus : s.uart.onBus = []) (hscript : s.script = arrivals bs ++ rest)
    (hroom : s.uart.rxFifo.length + bs.length ≤ s.params.rxDepth) :
    runSteps (2 * bs.length) s = .next { s with
      script := rest, uart := { s.uart with rxFifo := s.uart.rxFifo ++ bs } } := by
  induction bs generalizing s with
  | nil =>
    obtain rfl : s.script = rest := hscript
    rw [List.append_nil]
    rfl
  | cons b bs ih =>
    rw [List.length_cons] at hroom
    have hstart := runSteps_busStarts [b] (rest := arriveIntact :: (arrivals bs ++ rest)) 1 hr hscript
    have harrive := step_rxArrive_room (c := b) (s := { s with
      script := arriveIntact :: (arrivals bs ++ rest), uart := { s.uart with onBus := s.uart.onBus ++ [b] } })
      hr rfl (by rw [hbus]; rfl) rfl (by dsimp only; omega)
    have hfirst : runSteps 2 s = _ := hstart.trans (runSteps_of_step harrive 0)
    rw [List.length_cons, Nat.mul_succ, Nat.add_comm, runSteps_add hfirst,
      ih (by exact hr) rfl rfl (by simp; omega)]
    simp [hbus]

theorem arrivals_length (bs : List Byte) : (arrivals bs).length = 2 * bs.length := by
  simp [arrivals, Function.comp_def, Nat.mul_comm]

/-! ### The poll -/

theorem Reader.feed_cons_eq_some {r : Reader} {b : Byte} {bs : List Byte} {st : ReaderStep}
    (h : r.feed (b :: bs) = some st) :
    ∃ first next, r.processByte b = some first ∧ first.reader.feed bs = some next ∧
      st = ⟨next.reader, first.mismatch || next.mismatch⟩ := by
  unfold Reader.feed at h
  split at h
  · exact nomatch h
  · split at h
    · exact nomatch h
    · exact ⟨_, _, ‹_›, ‹_›, (Option.some.inj h).symm⟩

/-- No byte changes the length the reader expects. -/
theorem Reader.processByte_len {r : Reader} {b : Byte} {st : ReaderStep} (h : r.processByte b = some st) :
    st.reader.len = r.len := by
  obtain ⟨-, ⟨-, -, rfl⟩ | ⟨-, -, rfl⟩ | ⟨-, -, rfl⟩ | ⟨-, -, rfl⟩ | ⟨-, -, rfl⟩ | ⟨-, -, rfl⟩ |
    ⟨-, r', happ, rfl⟩ | ⟨-, -, rfl⟩ | ⟨-, -, rfl⟩⟩ := Reader.processByte_cases h
  case inr.inr.inr.inr.inr.inr.inl =>
    obtain ⟨-, buf, -, rfl⟩ := Reader.append_cases happ
    rfl
  all_goals rfl

theorem Reader.feed_len {bs : List Byte} {r : Reader} {st : ReaderStep} (h : r.feed bs = some st) :
    st.reader.len = r.len := by
  induction bs generalizing r st with
  | nil =>
    obtain rfl := Option.some.inj h
    rfl
  | cons b bs ih =>
    obtain ⟨first, next, hfirst, hnext, rfl⟩ := Reader.feed_cons_eq_some h
    exact (ih hnext).trans (Reader.processByte_len hfirst)

theorem Block.received_self (b : Block) : b.received ⟨b.r, false⟩ = b := by
  simp [Block.received]

theorem Block.received_received (b : Block) (st st' : ReaderStep) :
    (b.received st).received st' = b.received ⟨st'.reader, st.mismatch || st'.mismatch⟩ := by
  simp [Block.received, Bool.or_assoc]

/-- Before the deadline a poll gives the reader a byte a step: the bytes of the FIFO in their order (R210). -/
theorem runSteps_poll (bytes : List Byte) {s : State} {rest : List Event} {st : ReaderStep} (hr : s.rst = false)
    (hs : s.block.f.state = .rxPoll) (hd : s.deadline Config.tFrameMs = false) (hf : s.uart.rxFifo = bytes)
    (hfeed : s.block.r.feed bytes = some st)
    (hscript : s.script = List.replicate bytes.length .sequencer ++ rest) :
    runSteps bytes.length s = .next { s with
      script := rest, block := s.block.received st, uart := { s.uart with rxFifo := [] } } := by
  induction bytes generalizing s st with
  | nil =>
    obtain rfl : s.script = rest := hscript
    obtain rfl := Option.some.inj hfeed
    rw [List.length_nil, runSteps, Block.received_self, ← hf]
  | cons b bytes ih =>
    obtain ⟨first, next, hfirst, hnext, rfl⟩ := Reader.feed_cons_eq_some hfeed
    obtain ⟨hc, -⟩ := Reader.processByte_cases hfirst
    have hx := (seqStep_rxPoll (s := { s with script := List.replicate bytes.length .sequencer ++ rest }) hs).trans
      (seqRxPoll_received hc hd hf hfirst)
    have hrest := ih (s := { s with
      script := List.replicate bytes.length .sequencer ++ rest
      block := s.block.received first
      uart := { s.uart with rxFifo := bytes } }) hr hs hd rfl hnext rfl
    rw [List.length_cons, runSteps_sequencer hr hscript hx, hrest, Block.received_received]

/-- Before the deadline a poll of bytes that complete the reader, and one step more, complete the read or the verify
(R210, R211). -/
theorem runSteps_pollToEnd {s : State} {r : Reader} {bytes : List Byte} (hr : s.rst = false)
    (hs : s.block.f.state = .rxPoll) (hd : s.deadline Config.tFrameMs = false) (hf : s.uart.rxFifo = bytes)
    (hfeed : s.block.r.feed bytes = some ⟨r, false⟩) (hc : r.complete = true)
    (hscript : s.script = List.replicate (bytes.length + 1) .sequencer) :
    runSteps (bytes.length + 1) s = .next { s with
      script := [], block := ({ s.block with r := r } : Block).complete, uart := { s.uart with rxFifo := [] } } := by
  have hreceived : s.block.received ⟨r, false⟩ = { s.block with r := r } := by simp [Block.received]
  rw [List.replicate_succ'] at hscript
  have hpoll := runSteps_poll bytes hr hs hd hf hfeed hscript
  rw [hreceived] at hpoll
  have hx := (seqStep_rxPoll (s := { s with
    script := [], block := { s.block with r := r }, uart := { s.uart with rxFifo := [] } }) hs).trans
    (seqRxPoll_complete hc)
  have hlast := step_sequencer (s := { s with
    script := [.sequencer], block := { s.block with r := r }, uart := { s.uart with rxFifo := [] } }) hr rfl
  exact (runSteps_add hpoll 1).trans (runSteps_of_step (hlast.trans hx) 0)

/-- The echoes and then the response reach an empty FIFO, and the poll completes on them. -/
theorem runSteps_response {s u : State} {r : Reader} {n : Nat} {bus response : List Byte}
    (hrun : runSteps n s = .next u) (hr : u.rst = false) (hs : u.block.f.state = .rxPoll)
    (ht : u.block.f.t0 = u.nowMs) (hbus : u.uart.onBus = bus) (hfifo : u.uart.rxFifo = [])
    (hdepth : bus.length + response.length ≤ u.params.rxDepth)
    (hfeed : u.block.r.feed (bus ++ response) = some ⟨r, false⟩) (hc : r.complete = true)
    (hscript : u.script = List.replicate bus.length arriveIntact ++
      (arrivals response ++ List.replicate (response.length + bus.length + 1) .sequencer)) :
    runSteps (n + (bus.length + (2 * response.length + (response.length + bus.length + 1)))) s = .next { u with
      script := []
      block := ({ u.block with r := r } : Block).complete
      uart := { u.uart with onBus := [], rxFifo := [] } } := by
  have hsum : response.length + bus.length = (bus ++ response).length := by rw [List.length_append, Nat.add_comm]
  have hd : u.deadline Config.tFrameMs = false := by
    rw [State.deadline_eq_false_iff, ht, elapsed, BitVec.sub_self]
    decide
  rw [hsum] at hscript ⊢
  have hechoes := runSteps_echoesArrive bus hr hbus hscript (by rw [hfifo, List.length_nil]; omega)
  rw [hfifo, List.nil_append] at hechoes
  have harrives := runSteps_arrivals response (s := { u with
    script := arrivals response ++ List.replicate ((bus ++ response).length + 1) .sequencer
    uart := { u.uart with onBus := [], rxFifo := bus } }) hr rfl rfl hdepth
  have hpoll := runSteps_pollToEnd (s := { u with
    script := List.replicate ((bus ++ response).length + 1) .sequencer
    uart := { u.uart with onBus := [], rxFifo := bus ++ response } }) hr hs hd rfl hfeed hc rfl
  rw [runSteps_add hrun, runSteps_add hechoes, runSteps_add harrives]
  exact hpoll

/-! ### READ_FRAME -/

/-- A completed read leaves the received bytes in DATA, in front of those it had beyond (R211). -/
theorem Block.complete_data {b : Block} {data : List Byte} (hop : b.f.op = .read) (hlen : b.r.len.toNat = data.length)
    (hbuf : b.r.buf.first data.length = data) :
    b.complete.data.toList = data ++ b.data.toList.drop data.length := by
  rw [Block.complete_read hop, Block.finish_data, Bytes8.copyFirst_toList, hlen]
  exact congrArg (· ++ _) hbuf

/-- Settles O55: after the header the bus holds its echo, and the echo and the response are the frame the reader was
started for. -/
theorem readFrameDeliversTheResponse : Obligations.ReadFrameDeliversTheResponse := by
  intro s data hr haccepts hready hq ha hecho hbus hfifo hdepth hlen response script
  have hfits : data.length ≤ 8 := hlen ▸ haccepts.toNat_len_le rfl
  obtain ⟨r, hfeed, hc, -, hbuf⟩ := Reader.feed_frame (r := s.block.r.start s.block.fid s.block.len)
    (data := data) rfl rfl hlen.symm hfits
  have hrlen : r.len.toNat = data.length := (congrArg BitVec.toNat (Reader.feed_len hfeed)).trans hlen.symm
  have hpid : (s.block.r.start s.block.fid s.block.len).pid = pid s.block.fid := by rw [Reader.start_eq]
  have hfid : (s.block.r.start s.block.fid s.block.len).fid = s.block.fid := by rw [Reader.start_eq]
  rw [hpid, hfid] at hfeed
  have hcks : (if data = [] then [] else [frameCks s.block.fid data]).length ≤ 1 := by split_ifs <;> simp
  have hshort : response.length ≤ 9 := List.length_append.trans_le (Nat.add_le_add hfits hcks)
  have hlength : script.length = 16 + (3 + (2 * response.length + (response.length + 3 + 1))) := by
    simp [script, arrivals_length, sendRounds]
    omega
  have hheader := runSteps_readFrame (s := { s with script := script }) ⟨hr, hready, hq, ha⟩ haccepts
    (by simp only [script, List.cons_append, List.append_assoc]; rfl)
  have hpoll := runSteps_response (bus := [0x00, 0x55, pid s.block.fid]) hheader hr rfl rfl
    (by simp [State.sent, hbus, hecho, headerChars, sentChar]) hfifo
    ((Nat.add_le_add_left hshort 3).trans hdepth) hfeed hc rfl
  rw [hlength]
  refine ⟨_, hpoll, ?_⟩
  have hdata := Block.complete_data (b := { ((s.block.startedWith .read).setBaud s.block.baud).startReader.startTimer
    s.nowMs .rxPoll with r := r }) rfl hrlen hbuf
  rw [Block.complete_read rfl] at hdata ⊢
  exact ⟨rfl, rfl, rfl, rfl, rfl, rfl, hdata, rfl⟩

end Sys2Proof.Machine
end

section
/-! PROOFS. The faults of the register access port, the ways to its window, and `irq` (20_memory.md R60 to R62,
60_exceptions.md R262, R263, R270). -/

namespace Sys2Proof.Machine

/-! ### The transaction word as a number -/

/-- The offset is the low six bits of the transaction word (R98). -/
theorem txnOffset_eq_ofNat : ∀ txn : BitVec 7, txnOffset txn = BitVec.ofNat 6 txn.toNat := by decide

theorem offsetAligned_txnOffset_iff : ∀ txn : BitVec 7, offsetAligned (txnOffset txn) = true ↔ txn.toNat % 4 = 0 := by
  decide

/-- W is worth 64 above the offset (R98). -/
theorem mkTxn_toNat : ∀ (write : Bool) (off : BitVec 6),
    (mkTxn write off).toNat = off.toNat + if write then 64 else 0 := by
  decide

/-! ### The port: what is undefined faults, what is defined completes -/

/-- A transaction is undefined when it is narrow, wide or misaligned (R62). -/
theorem undefinedAccess_bus_iff (width : AccessWidth) (txn : BitVec 7) (v : Word) :
    UndefinedAccess width (.bus txn v) ↔ width ≠ .w32 ∨ txn.toNat % 4 ≠ 0 := by
  refine or_congr_right ?_
  rw [ne_eq, ← offsetAligned_txnOffset_iff]
  by_cases hal : offsetAligned (txnOffset txn) = true <;> simp [decode, hal]

/-- A decoding error names the offset of its word (R62). -/
theorem eq_misaligned_of_decode_error {word : HostWord} {e : DecodeError} (h : decode word = .error e) :
    e = .misaligned (wordOffset word) := by
  obtain ⟨txn, v, rfl, hal⟩ := offset_of_decode_error h
  simpa [decode, hal, wordOffset] using h.symm

theorem UndefinedAccess.hostAccess_eq {width : AccessWidth} {word : HostWord} (h : UndefinedAccess width word)
    (s : State) : hostAccess width word s = .fault (.busError (wordOffset word)) := by
  cases width
  case w32 =>
    obtain ⟨e, he⟩ := h.resolve_left (absurd rfl)
    obtain rfl := eq_misaligned_of_decode_error he
    simp only [hostAccess, he]
  all_goals rfl

/-- An undefined access faults whatever `rst` is (R263, assumption log 15). -/
theorem UndefinedAccess.hostMove_eq {width : AccessWidth} {word : HostWord} (h : UndefinedAccess width word)
    (s : State) : hostMove width word s = .fault (.busError (wordOffset word)) := by
  unfold hostMove
  rw [h.hostAccess_eq, h.hostAccess_eq]
  split <;> rfl

/-- An access that is not undefined completes, whatever `rst` is (R270). -/
theorem hostMove_completes {width : AccessWidth} {word : HostWord} (h : ¬ UndefinedAccess width word) (s : State) :
    ∃ t, hostMove width word s = .next t :=
  (hostMove_outcome width word s).resolve_right fun ⟨_, _, hundef⟩ => h hundef

/-- Settles O6: the port faults exactly on the undefined accesses, with the offset of the word. -/
theorem undefinedAccessIsBusError : Obligations.UndefinedAccessIsBusError := by
  intro s width txn v rest hp
  rw [step_pending hp, move, ← txnOffset_eq_ofNat, ← undefinedAccess_bus_iff width txn v]
  refine ⟨fun h => h.hostMove_eq _, fun ⟨hw, hal⟩ off hfault => ?_⟩
  have hdef : ¬ UndefinedAccess width (.bus txn v) := by
    simp [undefinedAccess_bus_iff, hw, hal]
  obtain ⟨t, hnext⟩ := hostMove_completes hdef { s with script := rest }
  exact nomatch hnext.symm.trans hfault

/-! ### An access that completes -/

/-- An access reaches neither the clock, `rst`, the parameters nor the receive FIFO, also when the block is reset at
it (R63, R290). -/
theorem hostMove_frame {width : AccessWidth} {word : HostWord} {s t : State} (h : hostMove width word s = .next t) :
    t.script = s.script ∧ t.uart.rxFifo = s.uart.rxFifo ∧ t.nowMs = s.nowMs ∧ t.rst = s.rst ∧
      t.params = s.params := by
  obtain ⟨-, v, rfl⟩ | ⟨-, -, i, -, hx⟩ := hostMove_next h
  · exact ⟨rfl, resetStep_rxFifo s, rfl, rfl, rfl⟩
  · obtain ⟨b, v, rfl⟩ := exec_frame hx
    exact ⟨rfl, rfl, rfl, rfl, rfl⟩

/-- Settles O8: an aligned transaction and a command word are not undefined. -/
theorem alignedAccessCompletes : Obligations.AlignedAccessCompletes := by
  intro s word rest hp hal
  have hdef : ¬ UndefinedAccess .w32 word := by
    cases word with
    | bus txn v => simp [undefinedAccess_bus_iff, hal txn v rfl]
    | cmd w => simp [UndefinedAccess, decode]
  obtain ⟨t, hnext⟩ := hostMove_completes hdef { s with script := rest }
  exact ⟨t, (step_pending hp).trans hnext, hostMove_frame hnext⟩

/-! ### The other ways to write an access -/

theorem step_hostScripted (width : AccessWidth) (word : HostWord) (s : State) (rest : List Event) :
    step { s with script := .host width word :: rest } = hostMove width word { s with script := rest } :=
  step_script (s := { s with script := .host width word :: rest }) rfl

/-- A command line steps as the transaction `wr CMD` in its place (R103). -/
theorem step_cmd {s : State} {width : AccessWidth} {v : Word} {rest : List Event}
    (hp : s.pending = .host width (.cmd v) :: rest) :
    step s = step { s with script := .host width (.bus 0x44 v) :: rest } :=
  calc
    step s = hostMove width (.cmd v) { s with script := rest } := step_pending hp
    _ = hostMove width (.bus 0x44 v) { s with script := rest } := (commandWordIsWriteOfCmd _ v).2 width
    _ = step { s with script := .host width (.bus 0x44 v) :: rest } := (step_hostScripted ..).symm

theorem hostMoveAt_outside {width : AccessWidth} {write : Bool} {addr v : Word} {s : State}
    (h : 64 ≤ (addr - s.params.linBase).toNat) :
    hostMoveAt width write addr v s = .refused (.outsideWindow addr) :=
  if_neg fun hlt => Nat.not_lt.mpr h (BitVec.lt_def.mp hlt)

/-- Inside the window the transaction word is the distance from LIN_BASE, and 64 more for a write (R60, R98). -/
theorem hostMoveAt_inside {width : AccessWidth} {write : Bool} {addr v : Word} {s : State} {txn : BitVec 7}
    (h : (addr - s.params.linBase).toNat < 64)
    (htxn : txn.toNat = (addr - s.params.linBase).toNat + if write then 64 else 0) :
    hostMoveAt width write addr v s = hostMove width (.bus txn v) s := by
  have hword : mkTxn write ((addr - s.params.linBase).setWidth 6) = txn := by
    apply BitVec.eq_of_toNat_eq
    rw [mkTxn_toNat, htxn, BitVec.toNat_setWidth, Nat.mod_eq_of_lt h]
  rw [← hword]
  exact if_pos (BitVec.lt_def.mpr h)

/-- An access at a platform address in the window steps as the access at its offset in its place (R60). -/
theorem step_hostAt {s : State} {width : AccessWidth} {write : Bool} {addr v : Word} {rest : List Event}
    {txn : BitVec 7} (hp : s.pending = .hostAt width write addr v :: rest)
    (h : (addr - s.params.linBase).toNat < 64)
    (htxn : txn.toNat = (addr - s.params.linBase).toNat + if write then 64 else 0) :
    step s = step { s with script := .host width (.bus txn v) :: rest } :=
  calc
    step s = hostMoveAt width write addr v { s with script := rest } := step_pending hp
    _ = hostMove width (.bus txn v) { s with script := rest } := hostMoveAt_inside h htxn
    _ = step { s with script := .host width (.bus txn v) :: rest } := (step_hostScripted ..).symm

/-- Every offset of the window has its transaction word (R98). -/
theorem exists_txn_toNat_eq {off : Nat} (h : off < 64) (write : Bool) :
    ∃ txn : BitVec 7, txn.toNat = off + if write then 64 else 0 :=
  ⟨mkTxn write (BitVec.ofNat 6 off), by rw [mkTxn_toNat, BitVec.toNat_ofNat, Nat.mod_eq_of_lt h]⟩

/-- Settles O7: each way of writing an access steps as a transaction, whose faults are those of O6. -/
theorem everyPathToTheWindowActsAlike : Obligations.EveryPathToTheWindowActsAlike := by
  refine ⟨fun s width v rest hp => ?_, fun s width write addr v rest hp => ⟨fun hout => ?_, fun hin => ?_⟩⟩
  · obtain ⟨hfault, hnone⟩ := undefinedAccessIsBusError _ width 0x44 v rest
      (State.pending_of_script (s := { s with script := .host width (.bus 0x44 v) :: rest }) rfl)
    rw [← step_cmd hp] at hfault hnone
    exact ⟨step_cmd hp, fun hw => hfault (.inl hw), fun hw => hnone ⟨hw, rfl⟩⟩
  · exact (step_pending hp).trans (hostMoveAt_outside hout)
  · obtain ⟨txn, htxn⟩ := exists_txn_toNat_eq hin write
    obtain ⟨hfault, hnone⟩ := undefinedAccessIsBusError _ width txn v rest
      (State.pending_of_script (s := { s with script := .host width (.bus txn v) :: rest }) rfl)
    have hmod : txn.toNat % 64 = (addr - s.params.linBase).toNat := by
      rw [htxn]
      split <;> omega
    have hal : txn.toNat % 4 = (addr - s.params.linBase).toNat % 4 := by omega
    have hoff : BitVec.ofNat 6 txn.toNat = BitVec.ofNat 6 (addr - s.params.linBase).toNat :=
      BitVec.eq_of_toNat_eq (by simp [← hmod])
    rw [← step_hostAt hp hin htxn, hal] at hfault hnone
    refine ⟨hoff ▸ hfault, hnone, fun txn' htxn' => ⟨step_hostAt hp hin htxn', ?_⟩⟩
    rintro i rfl hr hd
    rw [step_hostAt hp hin htxn']
    exact stepRunsDecodedInstruction _ _ i rest hr (State.pending_of_script rfl) hd rfl

/-! ### irq -/

theorem Block.irq_eq_true_iff (b : Block) : b.irq = true ↔ b.status.done = true ∧ b.ctrl.irqEn = true :=
  Bool.and_eq_true_iff

theorem Block.irq_of_done_eq_false {b : Block} (h : b.status.done = false) : b.irq = false := by
  simp [Block.irq, h]

theorem Block.writeCtrl_irq (v : Word) (b : Block) : (b.writeCtrl v).irq = (b.status.done && v.getLsbD 2) := rfl

/-- A 1 in bit 1 clears DONE (R30). -/
theorem Block.acknowledge_done {v : Word} (h : v.getLsbD 1 = true) (b : Block) :
    (b.acknowledge v).status.done = false := by
  simp [Status.clearFlags, w1c, h]

/-- Acceptance clears DONE (R201). -/
theorem Block.Accepts.accept_done {op : Op} {b : Block} (h : b.Accepts op) : (b.accept op).status.done = false := by
  obtain ⟨-, hlen, hbaud⟩ := h
  rw [Block.accept_ok hlen hbaud]
  rfl

/-- Settles O35: finish and CTRL leave the two bits they name, and each other event clears DONE. -/
theorem irqFollowsDoneAndEnable : Obligations.IrqFollowsDoneAndEnable := fun b v ok _ =>
  ⟨b.irq_eq_true_iff, b.finish_irq ok, b.writeCtrl_irq v, fun h => Block.irq_of_done_eq_false (b.acknowledge_done h),
    fun h => Block.irq_of_done_eq_false h.accept_done, b.reset_irq⟩

end Sys2Proof.Machine
end

section
/-! PROOFS. The reset values: what every register reads after a reset step, and the invariant right after reset
(10_state.md R37 to R39, 70_reset_and_hazards.md R290, R292, R293). -/

namespace Sys2Proof.Machine

/-- What register number `n` reads (R27 to R36). -/
def Block.register (b : Block) : Nat → Word
  | 0 => b.ctrlWord
  | 1 => b.cmdWord
  | 2 => b.statusWord
  | 3 => b.fidWord
  | 4 => b.pidWord
  | 5 => b.lenWord
  | 6 => b.cksWord
  | 7 => b.baudWord
  | 8 => dataWord b.data.b0
  | 9 => dataWord b.data.b1
  | 10 => dataWord b.data.b2
  | 11 => dataWord b.data.b3
  | 12 => dataWord b.data.b4
  | 13 => dataWord b.data.b5
  | 14 => dataWord b.data.b6
  | _ => dataWord b.data.b7

/-- The read of register `n` returns what it reads (R63, R98). -/
theorem exec_decodeRead (n : BitVec 4) (s : State) :
    exec (decodeRead n) s = .next (s.returnRead (s.block.register n.toNat)) := by
  obtain ⟨k⟩ := n
  fin_cases k <;> rfl

/-- At power-on every register reads as the table of R292 says. -/
theorem Block.initial_register : ∀ n < 16, Block.initial.register n = resetRegister n := by decide

/-- No register reads a field without a reset value, so all blocks read alike after a reset (R290). -/
theorem Block.reset_register (b : Block) {n : Nat} (hn : n < 16) : b.reset.register n = resetRegister n := by
  rw [← Block.initial_register n hn]
  interval_cases n <;> rfl

/-- The block at power-on is one that a reset has been through. -/
theorem Block.reset_initial : Block.initial.reset = Block.initial := rfl

theorem exists_reset_of_afterReset {s : State} {b : Block} (h : b = s.resetStep.block ∨ b = State.reset.block) :
    ∃ b₀ : Block, b = b₀.reset := by
  obtain rfl | rfl := h
  exacts [⟨s.block, rfl⟩, ⟨Block.initial, Block.reset_initial.symm⟩]

/-- Settles O49: both blocks are results of a reset, after which each register reads its reset value. -/
theorem resetStepValues : Obligations.ResetStepValues := by
  intro s b h
  obtain ⟨b₀, rfl⟩ := exists_reset_of_afterReset h
  have reads : ∀ n < 8, b₀.reset.register n = resetRegister n := fun n hn => b₀.reset_register (by omega)
  exact ⟨reads 0 (by decide), reads 1 (by decide), reads 2 (by decide), reads 3 (by decide), reads 4 (by decide),
    reads 5 (by decide), reads 6 (by decide), reads 7 (by decide), rfl, b₀.reset_baudOut, b₀.reset_irq⟩

/-- Settles O45: the block is idle at its full rate with a legal reader, and the FIFO is empty. -/
theorem resetMeetsInvariant : Obligations.ResetMeetsInvariant where
  block := .of_idle rfl rfl ⟨by decide, by decide, rfl⟩ nofun
  uart := Nat.zero_le _
  params := ⟨by decide, by decide⟩

end Sys2Proof.Machine
end

section
/-! PROOFS. Reset overrides: every step while `rst` stays 1, and the move that raises it (60_exceptions.md R266,
70_reset_and_hazards.md R290, R291). -/

namespace Sys2Proof.Machine

/-! ### What a reset step leaves of the UART -/

/-- A reset that does not change the rate leaves the UART (R291). -/
theorem resetStep_uart_sameRate {s : State} (h : s.block.baudOut = 19200) : s.resetStep.uart = s.uart :=
  if_pos h

/-- A reset that changes the rate marks every character still in the transmitter (R291, assumption log 14). -/
theorem resetStep_uart_otherRate {s : State} (h : s.block.baudOut ≠ 19200) :
    s.resetStep.uart = { s.uart with
      txQueue := s.uart.txQueue.map TxChar.disturb, txActive := s.uart.txActive.map TxChar.disturb } :=
  if_neg h

/-- Whatever the rate was, no reset reaches the bus, the line, the receive FIFO or `tx_ready`. -/
theorem resetStep_uart_frame (s : State) :
    s.resetStep.uart.rxFifo = s.uart.rxFifo ∧ s.resetStep.uart.onBus = s.uart.onBus ∧
      s.resetStep.uart.line = s.uart.line ∧ s.resetStep.uart.txReady = s.uart.txReady := by
  by_cases h : s.block.baudOut = 19200
  · rw [resetStep_uart_sameRate h]
    exact ⟨rfl, rfl, rfl, rfl⟩
  · rw [resetStep_uart_otherRate h]
    exact ⟨rfl, rfl, rfl, rfl⟩

/-! ### Every move while `rst` stays 1 -/

/-- A move of the environment that leaves `rst` at 1 is a reset step too (assumption log 16). -/
theorem envMove_next_of_rst {u t : State} (h : envMove u = .next t) (ht : t.rst = true) : t = u.resetStep := by
  cases hr : u.rst
  · rw [envMove_running hr] at h
    obtain rfl := Host.Outcome.next.inj h
    exact absurd (hr.symm.trans ht) nofun
  · rw [envMove_reset hr] at h
    exact (Host.Outcome.next.inj h).symm

theorem hostMove_next_of_rst {width : AccessWidth} {word : HostWord} {s t : State}
    (h : hostMove width word s = .next t) (hs : s.rst = true) : ∃ v, t = { s.resetStep with rdata := v } := by
  obtain ⟨-, hreset⟩ | ⟨hr, -⟩ := hostMove_next h
  exacts [hreset, absurd (hr.symm.trans hs) nofun]

/-- While `rst` stays 1 a step is its move's change of the environment and a reset step, but for the value a read
returned (R290). -/
theorem step_of_rst {s t : State} (hs : s.rst = true) (h : step s = .next t) (ht : t.rst = true) :
    ∃ v, t = { (s.nextMove.change s.takeMove).resetStep with rdata := v } := by
  have hs' : s.takeMove.rst = true := hs
  have env : ∀ {u : State}, envMove u = .next t → ∃ v, t = { u.resetStep with rdata := v } :=
    fun hu => ⟨_, envMove_next_of_rst hu ht⟩
  unfold step at h
  cases he : s.nextMove <;> rw [he] at h
  case host => exact hostMove_next_of_rst h hs'
  case hostAt => exact hostMove_next_of_rst (hostMoveAt_next h).2 hs'
  case sequencer =>
    rw [move, blockMove_reset hs'] at h
    exact ⟨_, (Host.Outcome.next.inj h).symm⟩
  all_goals exact env h

/-! ### A host access while `rst` is 1 -/

/-- The instruction runs on the reset block, and what it leaves is the value a read returned (assumption log 15). -/
theorem hostMove_of_rst {word : HostWord} {i : Instr} {s u : State} (hs : s.rst = true)
    (hd : decode word = .ok i) (hx : exec i s.resetStep = .next u) :
    hostMove .w32 word s = .next { s.resetStep with rdata := u.rdata } := by
  simp [hostMove, hs, hostAccess, hd, hx, keepRead]

/-- A read returns the reset value of its register. -/
theorem exec_decodeRead_resetStep (n : BitVec 4) (s : State) :
    exec (decodeRead n) s.resetStep = .next (s.resetStep.returnRead (resetRegister n.toNat)) := by
  rw [exec_decodeRead, State.resetStep_block, Block.reset_register _ n.isLt]

/-- A write returns nothing (R64). -/
theorem exec_decodeWrite_rdata {n : BitVec 4} {v : Word} {s t : State} (h : exec (decodeWrite n v) s = .next t) :
    t.rdata = s.rdata := by
  unfold decodeWrite at h
  split at h
  case h_2 =>
    obtain ⟨b, hb, -⟩ := execWrCmd_written v s
    obtain rfl := Host.Outcome.next.inj (hb.symm.trans h)
    rfl
  all_goals
    obtain rfl := Host.Outcome.next.inj h
    rfl

/-- A transaction at register `n` returns the reset value of it, or, being a write, nothing. -/
theorem exec_register_resetStep_rdata {write : Bool} {n : BitVec 4} {v : Word} {s t : State}
    (h : exec (if write then decodeWrite n v else decodeRead n) s.resetStep = .next t) :
    t.rdata = if write then s.rdata else some (resetRegister n.toNat) := by
  cases write
  · obtain rfl := Host.Outcome.next.inj ((exec_decodeRead_resetStep n s).symm.trans h)
    rfl
  · exact exec_decodeWrite_rdata (s := s.resetStep) h

/-- The transaction word of register `n` is 4 `n`, and 64 more for a write (R98, R99). -/
theorem mkTxn_register_toNat : ∀ (write : Bool) (n : BitVec 4),
    (mkTxn write (n ++ 0#2)).toNat = 4 * n.toNat + if write then 64 else 0 := by
  decide

/-- An aligned access in the window is a transaction at the register its distance from LIN_BASE counts (R60, R99). -/
theorem hostMoveAt_register {width : AccessWidth} {write : Bool} {addr v : Word} {s : State}
    (hin : (addr - s.params.linBase).toNat < 64) (hal : (addr - s.params.linBase).toNat % 4 = 0) :
    ∃ n : BitVec 4, n.toNat = (addr - s.params.linBase).toNat / 4 ∧
      hostMoveAt width write addr v s = hostMove width (.bus (mkTxn write (n ++ 0#2)) v) s := by
  have hn : (BitVec.ofNat 4 ((addr - s.params.linBase).toNat / 4)).toNat = (addr - s.params.linBase).toNat / 4 := by
    rw [BitVec.toNat_ofNat, Nat.mod_eq_of_lt (by omega)]
  refine ⟨_, hn, hostMoveAt_inside hin ?_⟩
  rw [mkTxn_register_toNat, hn, Nat.mul_div_cancel' (Nat.dvd_of_mod_eq_zero hal)]

/-! ### The other moves while `rst` is 1 -/

/-- Driving `rst` to 1 again is a reset step and nothing else (assumption log 16). -/
theorem move_rst_again {s : State} (hs : s.rst = true) : move (.rst true) s = .next s.resetStep := by
  have hsame : ({ s with rst := true } : State) = s := by rw [← hs]
  rw [move, hsame, envMove_reset hs]

/-- A move of the UART or of another node makes of the UART what its rule says, and is a step of the environment. -/
theorem move_ofUart {e : Event} (he : e.OfUart) (s : State) :
    ∃ u, s.uart.MovesTo s.params e u ∧ move e s = envMove { s with uart := u } := by
  cases e with
  | txReady level => exact ⟨_, rfl, rfl⟩
  | txStart => exact ⟨_, startOne_movesTo s.params s.uart, rfl⟩
  | txDone => exact ⟨_, sendOne_movesTo s.params s.uart, rfl⟩
  | busStart b => exact ⟨_, rfl, rfl⟩
  | rxArrive how draw => exact ⟨_, receiveOne_movesTo s.params how draw s.uart, rfl⟩
  | _ => exact he.elim

/-! ### The statements -/

/-- Settles O50: a step that leaves `rst` at 1 is a reset step behind its move's own change, and an access behind it
finds the reset values. -/
theorem resetOverridesEveryMove : Obligations.ResetOverridesEveryMove := by
  refine ⟨?_, ?_, ?_, ?_⟩
  · intro s t hs h ht
    obtain ⟨v, rfl⟩ := step_of_rst hs h ht
    have hpushed := (resetStep_pushedBytes _).trans (s.nextMove.change_pushedBytes s.takeMove)
    exact ⟨by simp, hpushed⟩
  · intro s i word rest hs hp hd
    obtain ⟨u, hx⟩ := exec_completes i (State.resetStep { s with script := rest })
    obtain ⟨hfifo, hbus, hline, hready⟩ := resetStep_uart_frame { s with script := rest }
    have reads : ∀ n, i = decodeRead n → u.rdata = some (resetRegister n.toNat) := by
      rintro n rfl
      obtain rfl := Host.Outcome.next.inj ((exec_decodeRead_resetStep n _).symm.trans hx)
      rfl
    exact ⟨_, (step_pending hp).trans (hostMove_of_rst hs hd hx), rfl, rfl, hfifo, hbus, hline, hready,
      reads 0, reads 1, reads 2, reads 3, reads 4, reads 5, reads 6, reads 7,
      reads 8, reads 9, reads 10, reads 11, reads 12, reads 13, reads 14, reads 15⟩
  · intro s write addr v rest hs hp off hin hal
    obtain ⟨n, hn, hword⟩ := hostMoveAt_register (width := .w32) (write := write) (v := v)
      (s := { s with script := rest }) hin hal
    obtain ⟨u, hx⟩ := exec_completes (if write then decodeWrite n v else decodeRead n)
      (State.resetStep { s with script := rest })
    obtain ⟨hfifo, hbus, hline, hready⟩ := resetStep_uart_frame { s with script := rest }
    have hread := exec_register_resetStep_rdata hx
    rw [hn] at hread
    exact ⟨_, (step_pending hp).trans (hword.trans (hostMove_of_rst hs (decode_mkTxn write n v) hx)),
      rfl, rfl, hfifo, hbus, hline, hready, hread⟩
  · intro s rest hs after
    refine ⟨?_, fun ms hp => ?_, fun e hp he => ?_⟩
    · rintro (hp | hp)
      exacts [(step_pending hp).trans (blockMove_reset hs), (step_pending hp).trans (move_rst_again hs)]
    · rw [← BitVec.add_def]
      exact (step_pending hp).trans (envMove_reset hs)
    · obtain ⟨u, hu, hmove⟩ := move_ofUart he { s with script := rest }
      exact ⟨u, hu, (step_pending hp).trans (hmove.trans (envMove_reset hs))⟩

/-- Settles O51: the move that raises `rst` is a reset step, and a reset step keeps all bytes. -/
theorem raisingResetAbandonsTransaction : Obligations.RaisingResetAbandonsTransaction := by
  intro s rest hp
  let raised : State := { s with script := rest, rst := true }
  obtain ⟨hfifo, hbus, -, -⟩ := resetStep_uart_frame raised
  refine ⟨raised.resetStep, (step_pending hp).trans (envMove_reset rfl), rfl, rfl, rfl, rfl, rfl, hfifo, hbus, rfl,
    resetStep_pushedBytes raised, fun hsame => ?_, fun hother => ?_⟩
  · rw [resetStep_uart_sameRate (s := raised) hsame]
    exact ⟨rfl, rfl⟩
  · rw [resetStep_uart_otherRate (s := raised) hother]
    simp [TxChar.disturb]

end Sys2Proof.Machine
end

section
/-! PROOFS. Wire times in nominal bit times (70_reset_and_hazards.md R308, R309). -/

namespace Sys2Proof.Machine

theorem headerBitTimes_eq : headerBitTimes = 40 := rfl

/-- Data and checksum follow the header, a character each (R308). -/
theorem frameBitTimes_of_pos {n : Nat} (h : 1 ≤ n) : frameBitTimes n = 40 + 10 * (n + 1) := by
  rw [frameBitTimes, if_neg (Nat.one_le_iff_ne_zero.mp h), headerBitTimes_eq, charBitTimes, Nat.mul_comm]

/-- Sync and PID, the data and the checksum (R309). -/
theorem readWindowBitTimes_eq (m : Nat) : readWindowBitTimes m = 20 + 10 * (m + 1) := by
  rw [readWindowBitTimes, charBitTimes, Nat.mul_comm (m + 1)]

/-- The 110 bit times of an 8-byte read last longer than 50 ms exactly below 2200 bit/s (R309). -/
theorem longerThanMs_readWindow_iff (baud : Nat) : LongerThanMs (readWindowBitTimes 8) baud 50 ↔ baud < 2200 := by
  rw [LongerThanMs, readWindowBitTimes_eq]
  omega

/-- Settles O58: a frame is its header and a character per byte, and so is the read window. -/
theorem slowRatesOverrunTheReadWindow : Obligations.SlowRatesOverrunTheReadWindow :=
  ⟨headerBitTimes_eq, rfl, frameBitTimes_of_pos (by decide), fun _ => frameBitTimes_of_pos, readWindowBitTimes_eq,
    longerThanMs_readWindow_iff⟩

end Sys2Proof.Machine
end

section
/-! PROOFS. RX_FLUSH without end while a byte arrives before every sequencer step (43_framer_commands.md R219,
70_reset_and_hazards.md R300). -/

namespace Sys2Proof.Machine

/-- What holds at first and lets every step go on and keeps itself holds after any number of steps. -/
theorem runSteps_keeps {P : State → Prop} (hstep : ∀ s, P s → ∃ t, step s = .next t ∧ P t) {s : State} (hs : P s)
    (n : Nat) : ∃ t, runSteps n s = .next t ∧ P t := by
  induction n generalizing s with
  | zero => exact ⟨s, rfl, hs⟩
  | succ n ih =>
    obtain ⟨u, hu, hPu⟩ := hstep s hs
    rw [runSteps_of_step hu]
    exact ih hPu

/-- A byte without a mark that arrives at a FIFO of any capacity but 0 leaves a byte in it. -/
theorem arrive_rxFifo_ne_nil {depth : Nat} (h : 1 ≤ depth) (b : Byte) (u : Uart) :
    (u.arrive depth b ⟨[]⟩).rxFifo ≠ [] := by
  unfold Uart.arrive
  split
  · simp
  · simp [keptBytes]
    omega

/-- The moves of the hang of R300: a byte starts on the bus and arrives, and then the sequencer steps. -/
def flushCycle (b : Byte) : List Event := [.busStart b, arriveIntact, .sequencer]

/-- The three places of the cycle: the byte is still to start, it is on the bus, it is in the FIFO. -/
inductive State.InFlushCycle (s : State) : Prop where
  | start (hs : s.script = [])
  | started (hs : s.script = [arriveIntact, .sequencer]) (hbus : s.uart.onBus ≠ [])
  | arrived (hs : s.script = [.sequencer]) (hfifo : s.uart.rxFifo ≠ [])

/-- The block `blk` flushes, and the moves to come are the rest of the cycle and the cycle without end. -/
structure State.KeepsFlushing (blk : Block) (b : Byte) (s : State) : Prop where
  running : s.rst = false
  block : s.block = blk
  room : 1 ≤ s.params.rxDepth
  cycle : s.forever = flushCycle b
  place : s.InFlushCycle

variable {blk : Block} {b : Byte} {s : State}

/-- The step goes on to the next place of the cycle; the sequencer finds a byte to discard, so the block stays as it
is. -/
theorem State.KeepsFlushing.step (h : s.KeepsFlushing blk b) (hblk : blk.f.state = .rxFlushing) :
    ∃ t, step s = .next t ∧ t.KeepsFlushing blk b := by
  have ⟨hr, hb, hroom, hcycle, hplace⟩ := h
  cases hplace with
  | start hs =>
    have hp : s.pending = flushCycle b := (State.pending_of_done hs).trans hcycle
    exact ⟨_, (step_pending hp).trans (envMove_running hr), hr, hb, hroom, hcycle,
      .started rfl (List.append_ne_nil_of_right_ne_nil _ (List.cons_ne_nil _ _))⟩
  | started hs hbus =>
    obtain ⟨x, bus, hx⟩ := List.exists_cons_of_ne_nil hbus
    refine ⟨_, (step_script hs).trans (envMove_running hr), hr, hb, hroom, hcycle, .arrived rfl ?_⟩
    rw [State.mapUart_uart, receiveOne_some hx rfl]
    exact arrive_rxFifo_ne_nil hroom x _
  | arrived hs hfifo =>
    obtain ⟨x, fifo, hx⟩ := List.exists_cons_of_ne_nil hfifo
    have hflush : ({ s with script := [] } : State).block.f.state = .rxFlushing := hb ▸ hblk
    have hseq := (seqStep_rxFlushing hflush).trans (seqRxFlushing_discards hx)
    exact ⟨_, (step_sequencer hr (State.pending_of_script hs)).trans hseq, hr, hb, hroom, hcycle, .start rfl⟩

/-- Settles O59: each step of the cycle leads to its next place with the block as it was, so no number of steps ends
the flush. -/
theorem flushNeverEndsWhileBytesKeepComing : Obligations.FlushNeverEndsWhileBytesKeepComing := by
  intro s b n hr hflush hroom hscript hforever
  have hstart : s.KeepsFlushing s.block b := ⟨hr, rfl, hroom, hforever, .start hscript⟩
  obtain ⟨t, hrun, ht⟩ := runSteps_keeps (fun _ h => h.step hflush) hstart n
  exact ⟨t, hrun, by simp [Block.busy_eq_true_iff, ht.block, hflush], ht.block ▸ hflush, by rw [ht.block]⟩

end Sys2Proof.Machine
end
